-- ==== Sys2Proof/Word.lean ====
section
/-! DEFINITION. The word types of the PM416: bytes of the request port and the index types of its tables. -/

namespace Sys2Proof

/-- One byte of a request or reply frame (spec/10_formats.md). -/
abbrev Byte := BitVec 8

/-- A slot of the Step Table, 0 to 2047 (R1). -/
abbrev Slot := Fin 2048

/-- A nail number, 0 to 4095 (R29). -/
abbrev NailNo := Fin 4096

/-- A card number, 0 to 15 (R154). -/
abbrev CardNo := Fin 16

/-- A lane number, 0 to 3 (R108). -/
abbrev LaneNo := Fin 4

end Sys2Proof
end

