-- ==== Sys2Proof/Syntax.lean ====
section
/-! DEFINITION. The commands of the PM416: one constructor of Instr for each row of spec/opcode_table.json. -/

namespace Sys2Proof

/-- A request frame as the port takes it (R173): the tag and the reserved byte of its header, and its body. The request
code is that of the row, and the declared body length is the body's own. -/
structure RequestFrame where
  tag : Byte
  reserved : Byte
  body : List Byte
  deriving DecidableEq, Repr

/-- What can arrive on MLRX (R158, R161, R163), at the level of its fields. -/
inductive LinkAnswer where
  /-- a frame with bad parity by the part's own check, or with a length its kind does not allow (R163) -/
  | damaged
  | acknowledgement (card : CardNo)
  | descriptor (card : CardNo) (cardType operate release check : Byte)
  | parity (card : CardNo)
  deriving DecidableEq, Repr

/-- The commands: requests of the host, events on the links and pins, and the part's own timed and internal steps. -/
inductive Instr where
  -- requests of the host (spec/09_the_request_port.md, section 9.4)
  | stepWrite (f : RequestFrame)
  | stepEdit (f : RequestFrame)
  | stepRead (f : RequestFrame)
  | stepPark (f : RequestFrame)
  | stepUnpark (f : RequestFrame)
  | stepRetire (f : RequestFrame)
  | stepScan (f : RequestFrame)
  | stepScanVisit
  | nailRead (f : RequestFrame)
  | nailLookup (f : RequestFrame)
  | nailLookupVisit
  | nailRetire (f : RequestFrame)
  | nailRestore (f : RequestFrame)
  | nailCommonSet (f : RequestFrame)
  | nailCommonClear (f : RequestFrame)
  | cardRead (f : RequestFrame)
  | cardCensus (f : RequestFrame)
  | runStart (f : RequestFrame)
  | runAbortDrain (f : RequestFrame)
  | runAbortForce (f : RequestFrame)
  | runSummary (f : RequestFrame)
  | timebaseSet (f : RequestFrame)
  | configSet (f : RequestFrame)
  | configRead (f : RequestFrame)
  | status (f : RequestFrame)
  | enableSet (f : RequestFrame)
  | softReset (f : RequestFrame)
  -- transfers the port handles itself
  /-- a transfer that ended with these whole bytes from the host (R173) -/
  | unknownRequestFrame (bytes : List Byte)
  /-- a transfer that ended with these whole bytes from the host (R174) -/
  | overrunFrame (bytes : List Byte)
  /-- a collection in which this many whole bytes were clocked (R176) -/
  | replyCollection (count : Nat)
  /-- a collection in which this many whole bytes were clocked (R177) -/
  | emptyCollection (count : Nat)
  -- reset, fixture and time
  | hardReset
  /-- the raw level of FXC changed to high or low (R70) -/
  | fxcChange (high : Bool)
  | fxcFilterExpiry
  | runElapsedTick
  -- the part's own steps
  | examinationStep
  | settleExpiry (lane : LaneNo)
  | converterTimeout (lane : LaneNo)
  | releaseWaitExpiry (lane : LaneNo)
  | ackTimeout
  | censusTimeout
  -- answers on the links
  | acknowledgement (card : CardNo)
  | descriptor (card : CardNo) (cardType operate release check : Byte)
  | parity (card : CardNo)
  | strayAnswer (answer : LinkAnswer)
  | result (lane : LaneNo) (startNumber : Byte) (count : BitVec 24) (overrange fault : Bool)
  | damagedResultFrame (lane : LaneNo)
  -- the ends of a transfer on PSEL
  | transferBegin
  | transferWithNoWholeByte
  deriving DecidableEq, Repr

end Sys2Proof
end

