-- ==== Sys2Proof/Config.lean ====
section
/-! DEFINITION. The free values of the model: what the manual leaves open, with no body, so that no proof can see them. -/

namespace Sys2Proof

/-- FREE VALUE (log 6). When one event abandons several lanes while the Matrix Link is free, each of them places
an OPEN in that event, and neither R80 nor R159 says whose request was placed first. The arbiter then looks for a waiting
requester from the rank after this one, so that any of them may be the first granted. The argument is the number of
free values drawn before. -/
opaque Config.freeRank : Nat → Fin 5

end Sys2Proof
end

