-- ==== Sys2Proof/Machine/State.lean ====
section
/-! DEFINITION. The state of the PM416, block by block as 00_scope.md lists them, and the state right after a hard reset. -/

namespace Sys2Proof.Machine

/-! ## Step records (spec/01_step_records.md) -/

/-- The kind of a step (R2). -/
inductive StepKind where
  | measure
  | contact
  deriving DecidableEq, Repr

/-- The role of a nail in a step, and the bus of a lane it is connected to (00_scope.md, Lanes, buses and roles). -/
inductive Role where
  | srcHi
  | srcLo
  | snsHi
  | snsLo
  | guard
  deriving DecidableEq, Repr

/-- The eleven verdicts (R6). NOT_RUN is no verdict: it is the absence of one. -/
inductive Verdict where
  | pass
  | failLow
  | failHigh
  | overrange
  | noContact
  | learned
  | skipNail
  | skipCard
  | matrixFault
  | converterFault
  | aborted
  deriving DecidableEq, Repr

/-- A nail list (R3): one nail in each required role, at most one in each sense role, and the guards in written order. -/
structure NailList where
  srcHi : NailNo
  srcLo : NailNo
  snsHi : Option NailNo
  snsLo : Option NailNo
  guards : List NailNo
  deriving DecidableEq, Repr

/-- The limits a record keeps, those of its judge mode (R5); the other set is stored as zero and so is not held. The
24-bit fields are two's complement. -/
inductive Limits where
  | absolute (lo hi : BitVec 24)
  | relative (nominal : BitVec 24) (tolLo tolHi : BitVec 16)
  deriving DecidableEq, Repr

/-- The timing group of a step (R2, R14). -/
structure Timing where
  baseRange : Fin 7
  settleClass : BitVec 3
  capacitance : BitVec 20
  extraSettle : BitVec 16
  aperture : BitVec 16
  deriving DecidableEq, Repr

/-- The program fields of a record (R2). -/
structure StepProgram where
  kind : StepKind
  orderKey : BitVec 16
  barrier : Bool
  nails : NailList
  timing : Timing
  retryAllowance : Fin 3
  limits : Limits
  deriving DecidableEq, Repr

/-- The learned and recorded fields of a record (R6). `none` for lastVerdict is NOT_RUN. -/
structure StepStats where
  offset : BitVec 24
  learnCount : BitVec 8
  lastVerdict : Option Verdict
  lastValue : Option (BitVec 24)
  lastDeviation : Option (BitVec 16)
  lastRange : Option Nat
  consecutiveFails : BitVec 8
  failTotal : BitVec 16
  lastRun : Option (BitVec 16)
  settleClamped : Bool
  deriving DecidableEq, Repr

/-- The limits group as a request carries it: the judge mode and all five values (R5, R14). -/
structure LimitsGroup where
  relative : Bool
  lo : BitVec 24
  hi : BitVec 24
  nominal : BitVec 24
  tolLo : BitVec 16
  tolHi : BitVec 16
  deriving DecidableEq, Repr

/-- An accepted STEP EDIT: its mask, as which groups are present, and the values of its groups (R14, R17). -/
structure StepEdit where
  order : Option (BitVec 16 × Bool)
  nails : Option NailList
  timing : Option Timing
  limits : Option LimitsGroup
  retry : Option Byte
  offset : Option (BitVec 24)
  counts : Bool
  deriving DecidableEq, Repr

/-- A set of park reasons drawn from REQUESTED and NAIL (R8). -/
structure ParkReasons where
  requested : Bool
  nail : Bool
  deriving DecidableEq, Repr

/-- The state of a record that is not FREE, with what only that state carries (R8): a HELD record its pending park, its
deferred edit and retire pending (R17, R19, R22), a PARKED record its reasons. -/
inductive StepStatus where
  | ready
  | held (pendingPark : Bool) (deferred : Option StepEdit) (retirePending : Bool)
  | parked (reasons : ParkReasons)
  deriving DecidableEq, Repr

/-- A record that is not FREE. -/
structure StepRecord where
  program : StepProgram
  stats : StepStats
  status : StepStatus
  deriving DecidableEq, Repr

/-- A slot of the Step Table: its run mark, which it carries FREE or not (R7), and its record, absent while FREE (R9). -/
structure StepSlot where
  runMark : Bool
  record : Option StepRecord
  deriving DecidableEq, Repr

/-- A slot as a hard reset leaves it: FREE with its run mark cleared (R1). -/
def StepSlot.blank : StepSlot := { runMark := false, record := none }

/-! ## Nail entries (spec/02_the_nail_map.md) -/

/-- The state of a nail (R32). -/
inductive NailState where
  | service
  | suspect
  | retired
  deriving DecidableEq, Repr

/-- A nail entry (R29). A lane holds a nail on at most one bus, since a record names a nail once (R3, R35), so the set of
(lane, bus) pairs is the bus of each lane, if any. -/
structure NailEntry where
  state : NailState
  common : Bool
  refCount : Nat
  contactFails : BitVec 4
  bindings : Vector (Option Role) 4
  deriving DecidableEq, Repr

/-- A nail entry as a hard reset leaves it (R29). -/
def NailEntry.blank : NailEntry :=
  { state := .service, common := false, refCount := 0, contactFails := 0, bindings := Vector.replicate 4 none }

/-! ## Timebase (spec/03_timebase_and_settle_arithmetic.md) -/

/-- The prescale code and the divisor (R49); the tick length is derived from them. -/
structure Timebase where
  prescale : BitVec 4
  divisor : BitVec 11
  deriving DecidableEq, Repr

/-! ## Run Control (spec/04_runs.md) -/

/-- The run state (R63). -/
inductive RunState where
  | idle
  | armed
  | running
  | draining
  | done
  | aborted
  deriving DecidableEq, Repr

/-- The mode of a run (R68). -/
inductive RunMode where
  | test
  | contact
  | learn
  deriving DecidableEq, Repr

/-- The abort reason (R84). -/
inductive AbortReason where
  | drainRequest
  | forceRequest
  | fixtureOpen
  deriving DecidableEq, Repr

/-- The filtered fixture state (R70). -/
inductive FixtureState where
  | opened
  | closed
  deriving DecidableEq, Repr

/-- The run summary record (R84). Its run number and state are Run Control's own and are held there once. The eleven
verdict counts stand in verdict code order. -/
structure RunSummary where
  mode : RunMode
  reverse : Bool
  weight : Fin 4
  abortReason : Option AbortReason
  elapsed : BitVec 32
  verdicts : Vector Nat 11
  dispatched : Nat
  retries : Nat
  notRun : Option Nat
  deriving DecidableEq, Repr

/-- The summary after a clear (R84). -/
def RunSummary.cleared : RunSummary :=
  { mode := .test, reverse := false, weight := 0, abortReason := none, elapsed := 0, verdicts := Vector.replicate 11 0,
    dispatched := 0, retries := 0, notRun := none }

/-- Run Control: run state, run number and summary, the raw level of FXC, the filtered fixture state and the filter
interval, present while it runs, with the count it was started with (R63, R65, R70, R71, R84). -/
structure RunControl where
  state : RunState
  number : BitVec 16
  summary : RunSummary
  rawHigh : Bool
  fixture : FixtureState
  filterTimer : Option Nat
  deriving DecidableEq, Repr

/-! ## Dispatcher (spec/05_the_dispatcher.md) -/

/-- The examination state (R88). -/
inductive ExamState where
  | waiting
  | examining
  deriving DecidableEq, Repr

/-! ## Measurement lanes and converter ports (spec/06_measurement_lanes_and_converter_ports.md) -/

/-- The phase of a lane (R108). -/
inductive LanePhase where
  | idle
  | closing
  | settling
  | measuring
  | releasing
  deriving DecidableEq, Repr

/-- The state of a requester's one outstanding Matrix Link command (R108, R111, R159). -/
inductive LinkRequest where
  | none
  | waiting
  | inFlight
  deriving DecidableEq, Repr

/-- An end decided in CLOSING while a command is outstanding (R108, R125). -/
inductive PendingEnd where
  | aborted
  | matrixFault
  deriving DecidableEq, Repr

/-- The lane timer that runs, with the count it was started with (R50, R108). -/
inductive LaneTimer where
  | settle (ticks : Nat)
  | converterTimeout (ticks : Nat)
  | releaseWait (ticks : Nat)
  deriving DecidableEq, Repr

/-- A lane's record (R108). The command of a link request is fixed by the phase, the closed count and the open position
(R112, R122), so it is not held again. The release set stands in ascending order without repeats. -/
structure Lane where
  phase : LanePhase
  heldSlot : Option Slot
  closedCount : Nat
  linkRequest : LinkRequest
  pendingEnd : Option PendingEnd
  retriesUsed : Nat
  rangeInUse : Nat
  releaseSet : List CardNo
  openPosition : Nat
  timer : Option LaneTimer
  deriving DecidableEq, Repr

/-- A lane after either reset (R108). -/
def Lane.blank : Lane :=
  { phase := .idle, heldSlot := none, closedCount := 0, linkRequest := .none, pendingEnd := none, retriesUsed := 0,
    rangeInUse := 0, releaseSet := [], openPosition := 0, timer := none }

/-- A START frame (R116). -/
structure StartFrame where
  number : Byte
  range : Nat
  aperture : BitVec 16
  deriving DecidableEq, Repr

/-- A Converter Port (R116): its START number, the outstanding START, and the last START frame on its CVnTX wire
(log 9). -/
structure ConverterPort where
  startNumber : Byte
  outstanding : Option Byte
  sentStart : Option StartFrame
  deriving DecidableEq, Repr

/-- A Converter Port after a hard reset (R116). -/
def ConverterPort.blank : ConverterPort := { startNumber := 0, outstanding := none, sentStart := none }

/-! ## Card Table, Matrix Link and census (spec/08_matrix_cards_and_the_matrix_link.md) -/

/-- The state of a card (R155). -/
inductive CardState where
  | absent
  | census
  | online
  | offline
  deriving DecidableEq, Repr

/-- The descriptor fields of a card, present or absent together (R154). Times are in microseconds. -/
structure Descriptor where
  cardType : Byte
  operate : Byte
  release : Byte
  deriving DecidableEq, Repr

/-- A card entry (R154). -/
structure CardEntry where
  state : CardState
  descriptor : Option Descriptor
  checksumBad : Bool
  paritySeen : Bool
  timeoutSeen : Bool
  deriving DecidableEq, Repr

/-- A card entry after a hard reset (R154). -/
def CardEntry.blank : CardEntry :=
  { state := .census, descriptor := none, checksumBad := false, paritySeen := false, timeoutSeen := false }

/-- A command of the Matrix Link (R158). -/
inductive LinkCommand where
  | close (card : CardNo) (crosspoint : Byte) (lane : LaneNo) (bus : Role)
  | openOne (card : CardNo) (crosspoint : Byte) (lane : LaneNo) (bus : Role)
  | openAll (card : CardNo)
  | identify (card : CardNo)
  deriving DecidableEq, Repr

/-- The command in flight: the rank it was granted to (lanes 0 to 3, census engine 4), whether it has been resent, and the
count its acknowledgement or census timer was last started with (R159, R161). -/
structure InFlight where
  requester : Fin 5
  command : LinkCommand
  resent : Bool
  timer : Nat
  deriving DecidableEq, Repr

/-- The Matrix Link (R159): the rank last granted, the command in flight, absent while the link is free, and the last
command frame on the MLTX wire (log 9). -/
structure Link where
  lastGranted : Fin 5
  inFlight : Option InFlight
  sentCommand : Option LinkCommand
  deriving DecidableEq, Repr

/-- Which of its two commands the census engine has with the link (R165, R166). -/
inductive CensusStage where
  | identify
  | openAll
  deriving DecidableEq, Repr

/-- A census in progress (R164 to R166): the card being identified, the cards still to come, and the engine's request. -/
structure Census where
  current : CardNo
  remaining : List CardNo
  stage : CensusStage
  request : LinkRequest
  deriving DecidableEq, Repr

/-! ## Request Port (spec/09_the_request_port.md) -/

/-- The status codes (section 9.5). -/
inductive Status where
  | ok
  | deferred
  | started
  | busy
  | notReady
  | notActive
  | tableFull
  | slotInUse
  | noSuchStep
  | badRequest
  | badLength
  | badNail
  | dupNail
  | badRole
  | badLimits
  | nailRetired
  | nailInUse
  deriving DecidableEq, Repr

/-- What the request buffer holds (R173). -/
structure Request where
  code : Byte
  tag : Byte
  body : List Byte
  deriving DecidableEq, Repr

/-- What the reply buffer holds (R175). -/
structure Reply where
  code : Byte
  tag : Byte
  status : Status
  body : List Byte
  deriving DecidableEq, Repr

/-- The filter of a STEP SCAN (R26, section 10.3): the verdict set by verdict code, the state set by state code, and the
current-run part. -/
structure ScanFilter where
  verdicts : BitVec 12
  states : BitVec 4
  currentRun : Bool
  deriving DecidableEq, Repr

/-- A walk of the Step Table in progress: the slot it visits next and what it has collected (R27, R44). -/
inductive Walk where
  | scan (filter : ScanFilter) (next : Slot) (found : List Slot)
  | lookup (nail : NailNo) (next : Slot) (found : List (Slot × Role))
  deriving DecidableEq, Repr

/-- The port state with its buffers (R171): HOLDING holds the request whose walk goes on (R178), REPLYING the reply. -/
inductive PortState where
  | empty
  | holding (request : Request) (walk : Walk)
  | replying (reply : Reply)
  deriving DecidableEq, Repr

/-- The three port states by name (R171). -/
inductive PortPhase where
  | empty
  | holding
  | replying
  deriving DecidableEq, Repr

/-- A transfer in progress: the port state at its start, and the bytes it shifts out, then zeros (R172). -/
structure Transfer where
  startedIn : PortPhase
  shiftOut : List Byte
  deriving DecidableEq, Repr

/-- One bit for each of the six conditions: the latches, or their enables (R179, R180). -/
structure Conditions where
  runDone : Bool
  cardOffline : Bool
  nailSuspect : Bool
  requestOverrun : Bool
  lateResult : Bool
  censusDone : Bool
  deriving DecidableEq, Repr

/-- No condition. -/
def Conditions.clear : Conditions :=
  { runDone := false, cardOffline := false, nailSuspect := false, requestOverrun := false, lateResult := false,
    censusDone := false }

/-- The five settings (section 9.7). -/
structure Settings where
  contactThreshold : BitVec 4
  ackTimeout : BitVec 16
  converterMargin : BitVec 16
  filterCode : BitVec 2
  censusTimeout : BitVec 16
  deriving DecidableEq, Repr

/-! ## The whole part -/

/-- The state of the part. The Step Table and the Nail Map are held sparsely: an entry that is not listed is as a hard
reset leaves it (log 10). `freeDraws` counts the free values drawn (log 7), and `pending` is the queue of commands. -/
structure State where
  steps : List (Slot × StepSlot)
  nails : List (NailNo × NailEntry)
  timebase : Timebase
  run : RunControl
  exam : ExamState
  lanes : Vector Lane 4
  ports : Vector ConverterPort 4
  cards : Vector CardEntry 16
  link : Link
  census : Option Census
  port : PortState
  transfer : Option Transfer
  shiftedOut : List Byte
  latches : Conditions
  enables : Conditions
  settings : Settings
  freeDraws : Nat
  pending : List Instr
  deriving DecidableEq, Repr

/-- Why a step can stop with a fault: never. The manual gives every event an effect, a refusal in a reply, or says that
it is discarded (log 18). -/
inductive Fault where
  deriving DecidableEq, Repr

/-- Why a step can be refused. -/
inductive Refusal where
  /-- raised by an arm of exec whose command has no meaning yet; no arm raises it; safe -/
  | notModelled (mnemonic : String)
  deriving DecidableEq, Repr

/-- The part right after a hard reset: power-on has ended with FXC low (log 8), and the census of all sixteen cards has
started in that event, its first IDENTIFY granted and sent (R169, R164, example of section 8.7). -/
def State.reset : State :=
  { steps := []
    nails := []
    timebase := { prescale := 9, divisor := 1 }
    run := { state := .idle, number := 0, summary := RunSummary.cleared, rawHigh := false, fixture := .opened,
             filterTimer := none }
    exam := .waiting
    lanes := Vector.replicate 4 Lane.blank
    ports := Vector.replicate 4 ConverterPort.blank
    cards := Vector.replicate 16 CardEntry.blank
    link := { lastGranted := 4
              inFlight := some { requester := 4, command := .identify 0, resent := false, timer := 500 }
              sentCommand := some (.identify 0) }
    census := some { current := 0, remaining := [1, 2, 3, 4, 5, 6, 7, 8, 9, 10, 11, 12, 13, 14, 15], stage := .identify,
                     request := .inFlight }
    port := .empty
    transfer := none
    shiftedOut := []
    latches := Conditions.clear
    enables := Conditions.clear
    settings := { contactThreshold := 3, ackTimeout := 50, converterMargin := 200, filterCode := 2,
                  censusTimeout := 500 }
    freeDraws := 0
    pending := [] }

end Sys2Proof.Machine
end

