-- ==== Sys2Proof/Machine/Judge.lean ====
section
/-! DEFINITION. The Judge Unit's arithmetic (sections 7.2 to 7.4): exact whole numbers, saturated and rounded only where
the rules say so. -/

namespace Sys2Proof.Machine

/-- The upper and lower bounds of a 24-bit signed count (00_scope.md, Numbers). -/
def maxCount : Int := 8388607
def minCount : Int := -8388608

/-- A whole number saturated to the 24-bit signed range. -/
def saturate24 (x : Int) : BitVec 24 := BitVec.ofInt 24 (max minCount (min maxCount x))

/-- A saturating counter raised by one. -/
def raiseSaturating {w : Nat} (x : BitVec w) : BitVec w := if x = BitVec.allOnes w then x else x + 1

/-- A verdict as it is written (R147): the value, deviation and range it carries, and for LEARNED the new offset. -/
structure VerdictWrite where
  verdict : Verdict
  value : Option (BitVec 24)
  deviation : Option (BitVec 16)
  range : Option Nat
  learnedOffset : Option (BitVec 24)
  deriving DecidableEq, Repr

/-- A verdict that carries nothing but perhaps a range (R147, R151, R152). -/
def VerdictWrite.bare (v : Verdict) (range : Option Nat) : VerdictWrite :=
  { verdict := v, value := none, deviation := none, range := range, learnedOffset := none }

/-- What the Judge Unit answers to a reading (R118). -/
inductive Judgment where
  | retry
  | verdict (w : VerdictWrite)
  deriving DecidableEq, Repr

/-- A reading as the lane hands it over (R118, R135). -/
structure Reading where
  count : BitVec 24
  overrange : Bool
  fault : Bool
  rangeUsed : Nat
  retriesUsed : Nat
  deriving DecidableEq, Repr

/-- The count scaled to the base range, saturated (R138). -/
def scaleCount (a : BitVec 24) (j : Nat) : BitVec 24 := saturate24 (a.toInt * ((10 ^ j : Nat) : Int))

/-- The scaled reading compensated by the offset, saturated (R139). -/
def compensate (s o : BitVec 24) : BitVec 24 := saturate24 (s.toInt - o.toInt)

/-- The learn update: the quotient by 2^w is truncated toward zero (R145). -/
def learnOffset (o s : BitVec 24) (w : Nat) : BitVec 24 :=
  BitVec.ofInt 24 (o.toInt + (s.toInt - o.toInt).tdiv ((2 ^ w : Nat) : Int))

/-- Judgment against lo and hi, inclusive (R140). -/
def judgeAbsolute (lo hi v : BitVec 24) : Verdict :=
  if v.toInt < lo.toInt then .failLow else if hi.toInt < v.toInt then .failHigh else .pass

/-- Judgment against a nominal and tolerances by exact comparison, inclusive (R142). -/
def judgeRelative (nominal : BitVec 24) (tolLo tolHi : BitVec 16) (v : BitVec 24) : Verdict :=
  if 1000 * v.toInt < nominal.toInt * (1000 - (tolLo.toNat : Int)) then .failLow
  else if nominal.toInt * (1000 + (tolHi.toNat : Int)) < 1000 * v.toInt then .failHigh
  else .pass

/-- The magnitude of the deviation before the clamp: rounded half away from zero (R143). -/
def deviationMagnitude (nominal v : Int) : Nat :=
  let m := (v - nominal).natAbs * 1000
  let n := nominal.natAbs
  if n ≤ 2 * (m % n) then m / n + 1 else m / n

/-- The deviation in tenths of a percent of the nominal, clamped to 16 bits signed (R143). -/
def deviationOf (nominal v : BitVec 24) : BitVec 16 :=
  let q : Int := deviationMagnitude nominal.toInt v.toInt
  let d : Int := if v.toInt < nominal.toInt then -q else q
  BitVec.ofInt 16 (max (-32768) (min 32767 d))

/-- The judge stage of a compensated value by kind and judge mode (R140 to R143). -/
def judgeValue (k : StepKind) (limits : Limits) (v : BitVec 24) (range : Nat) : VerdictWrite :=
  match k, limits with
  | .measure, .absolute lo hi =>
    { verdict := judgeAbsolute lo hi v, value := some v, deviation := none, range := some range, learnedOffset := none }
  | .measure, .relative nominal tolLo tolHi =>
    { verdict := judgeRelative nominal tolLo tolHi v, value := some v, deviation := some (deviationOf nominal v),
      range := some range, learnedOffset := none }
  | .contact, .absolute _ hi =>
    { verdict := if v.toInt ≤ hi.toInt then .pass else .noContact, value := some v, deviation := none,
      range := some range, learnedOffset := none }
  -- a CONTACT record is stored ABSOLUTE (R4), so this case does not arise; its hi is stored as zero (R5, log 17)
  | .contact, .relative _ _ _ =>
    { verdict := if v.toInt ≤ 0 then .pass else .noContact, value := some v, deviation := none, range := some range,
      learnedOffset := none }

/-- The judgment of a reading, stage by stage; the first stage with an outcome ends it (R135 to R145). -/
def judge (mode : RunMode) (weight : Nat) (r : StepRecord) (x : Reading) : Judgment :=
  let range := x.rangeUsed
  if x.fault then .verdict (VerdictWrite.bare .converterFault (some range))
  else if x.overrange then
    match r.program.kind with
    | .contact => .verdict (VerdictWrite.bare .noContact (some range))
    | .measure =>
      if x.retriesUsed < r.program.retryAllowance.val ∧ range < 6 then .retry
      else .verdict (VerdictWrite.bare .overrange (some range))
  else
    let s := scaleCount x.count (range - r.program.timing.baseRange.val)
    if mode = .learn ∧ r.program.kind = .measure then
      .verdict { verdict := .learned, value := some s, deviation := none, range := some range,
                 learnedOffset := some (learnOffset r.stats.offset s weight) }
    else .verdict (judgeValue r.program.kind r.program.limits (compensate s r.stats.offset) range)

/-- Whether a verdict counts as failing in a run of this mode (R148). -/
def isFailing (mode : RunMode) : Verdict → Bool
  | .failLow => true
  | .failHigh => true
  | .noContact => true
  | .overrange => decide (mode = .test)
  | _ => false

/-- The learned and recorded fields after a verdict (R147 steps 1 to 3, R148). -/
def StepStats.afterVerdict (st : StepStats) (mode : RunMode) (runNumber : BitVec 16) (w : VerdictWrite) : StepStats :=
  { offset := w.learnedOffset.getD st.offset
    learnCount := if w.verdict = .learned then raiseSaturating st.learnCount else st.learnCount
    lastVerdict := some w.verdict
    lastValue := w.value
    lastDeviation := w.deviation
    lastRange := w.range
    consecutiveFails :=
      if w.verdict = .pass then 0
      else if isFailing mode w.verdict then raiseSaturating st.consecutiveFails else st.consecutiveFails
    failTotal := if isFailing mode w.verdict then raiseSaturating st.failTotal else st.failTotal
    lastRun := some runNumber
    settleClamped := st.settleClamped }

end Sys2Proof.Machine
end

