-- ==== Sys2Proof/Machine/Flags.lean ====
section
/-! DEFINITION. The condition latches and their enables, the lines they drive, and the cards' sticky flags
(sections 9.1, 9.6 and 8.3). -/

namespace Sys2Proof.Machine

/-- The six conditions by name (R179). -/
inductive Condition where
  | runDone
  | cardOffline
  | nailSuspect
  | requestOverrun
  | lateResult
  | censusDone
  deriving DecidableEq, Repr

/-- Whether a condition is in a set of conditions. -/
def Conditions.has (c : Conditions) : Condition → Bool
  | .runDone => c.runDone
  | .cardOffline => c.cardOffline
  | .nailSuspect => c.nailSuspect
  | .requestOverrun => c.requestOverrun
  | .lateResult => c.lateResult
  | .censusDone => c.censusDone

/-- A set of conditions with one more set (R179). -/
def Conditions.add (c : Conditions) : Condition → Conditions
  | .runDone => { c with runDone := true }
  | .cardOffline => { c with cardOffline := true }
  | .nailSuspect => { c with nailSuspect := true }
  | .requestOverrun => { c with requestOverrun := true }
  | .lateResult => { c with lateResult := true }
  | .censusDone => { c with censusDone := true }

/-- The conditions of the first set that are not in the second (R181). -/
def Conditions.without (c m : Conditions) : Conditions :=
  { runDone := c.runDone && !m.runDone
    cardOffline := c.cardOffline && !m.cardOffline
    nailSuspect := c.nailSuspect && !m.nailSuspect
    requestOverrun := c.requestOverrun && !m.requestOverrun
    lateResult := c.lateResult && !m.lateResult
    censusDone := c.censusDone && !m.censusDone }

/-- A byte in latch bit order, bits 6 and 7 zero (section 10.2). -/
def Conditions.toByte (c : Conditions) : Byte :=
  BitVec.ofNat 8 (c.runDone.toNat + 2 * c.cardOffline.toNat + 4 * c.nailSuspect.toNat + 8 * c.requestOverrun.toNat
    + 16 * c.lateResult.toNat + 32 * c.censusDone.toNat)

/-- The conditions a byte names in latch bit order; bits 6 and 7 are ignored (R181, R182). -/
def Conditions.ofByte (b : Byte) : Conditions :=
  { runDone := b.getLsbD 0
    cardOffline := b.getLsbD 1
    nailSuspect := b.getLsbD 2
    requestOverrun := b.getLsbD 3
    lateResult := b.getLsbD 4
    censusDone := b.getLsbD 5 }

/-- A cause reports to its latch (R179). -/
def State.latch (s : State) (c : Condition) : State := { s with latches := s.latches.add c }

/-- ATTN: high while at least one latch is set whose enable is on (R180). -/
def State.attn (s : State) : Bool :=
  (s.latches.runDone && s.enables.runDone) || (s.latches.cardOffline && s.enables.cardOffline)
    || (s.latches.nailSuspect && s.enables.nailSuspect) || (s.latches.requestOverrun && s.enables.requestOverrun)
    || (s.latches.lateResult && s.enables.lateResult) || (s.latches.censusDone && s.enables.censusDone)

/-- The port state by name (R171). -/
def PortState.phase : PortState → PortPhase
  | .empty => .empty
  | .holding _ _ => .holding
  | .replying _ => .replying

/-- READY: high while the port is EMPTY (R171). -/
def State.readyLine (s : State) : Bool := decide (s.port.phase = .empty)

/-- REPLY: high while the port is REPLYING (R171). -/
def State.replyLine (s : State) : Bool := decide (s.port.phase = .replying)

/-- A card's three sticky flags cleared (R157, R167). -/
def CardEntry.clearFlags (c : CardEntry) : CardEntry :=
  { c with checksumBad := false, paritySeen := false, timeoutSeen := false }

end Sys2Proof.Machine
end

