-- ==== Sys2Proof/Machine/Timebase.lean ====
section
/-! DEFINITION. The pace tick and the settle arithmetic (spec/03_timebase_and_settle_arithmetic.md, R49 to R62). -/

namespace Sys2Proof.Machine

/-- The tick length in picoseconds (R49). -/
def Timebase.tickLength (t : Timebase) : Nat := 31250 * (t.prescale.toNat + 7) * (t.divisor.toNat + 1)

/-- The ceiling of a quotient: the quotient when the division leaves no remainder, the quotient plus one otherwise
(R61). -/
def ceilDiv (a b : Nat) : Nat := if a % b = 0 then a / b else a / b + 1

/-- A time of u microseconds in ticks of T picoseconds (R53). -/
def microTicks (u T : Nat) : Nat := ceilDiv (u * 1000000) T

/-- The source resistance of a range, in ohms (R56). -/
def sourceResistance (r : Nat) : Nat := 10 ^ (r + 1)

/-- The number of time constants of a settle class (R56). -/
def timeConstants (c : BitVec 3) : Nat :=
  match c.toNat with
  | 0 => 0
  | 1 => 3
  | 2 => 5
  | 3 => 7
  | 4 => 9
  | 5 => 11
  | 6 => 14
  | _ => 18

/-- The RC ticks of a step at range r (R57). -/
def rcTicks (t : Timing) (r T : Nat) : Nat :=
  ceilDiv (timeConstants t.settleClass * (sourceResistance r * t.capacitance.toNat)) T

/-- The largest settle (R58). -/
def maxSettle : Nat := 16777215

/-- The settle used for a computed sum, and the settle-clamped flag it writes (R58). -/
def limitSettle (sum : Nat) : Nat × Bool := if maxSettle ≤ sum then (maxSettle, true) else (sum, false)

/-- The first settle of a step, from the largest operate time among its cards (R58). -/
def firstSettle (t : Timing) (operate T : Nat) : Nat × Bool :=
  limitSettle (microTicks operate T + rcTicks t t.baseRange.val T + t.extraSettle.toNat)

/-- The retry settle at the range of the retry: no operate ticks (R59). -/
def retrySettle (t : Timing) (r T : Nat) : Nat × Bool := limitSettle (rcTicks t r T + t.extraSettle.toNat)

/-- The largest of the times of a list of cards' descriptors; 0 for none. -/
def largestTime (times : List Nat) : Nat := times.foldl max 0

/-- The release wait of a release set: the conversion of its largest release time, 0 for the empty set (R54). -/
def releaseWaitTicks (releases : List Nat) (T : Nat) : Nat :=
  match releases with
  | [] => 0
  | r :: rs => microTicks (largestTime (r :: rs)) T

/-- The count of a filter interval by filter code (R71). -/
def filterTicks (code : BitVec 2) : Nat :=
  match code.toNat with
  | 0 => 0
  | 1 => 500
  | 2 => 5000
  | _ => 20000

end Sys2Proof.Machine
end

