-- ==== Sys2Proof/Machine/Operands.lean ====
section
/-! DEFINITION. The byte layouts of requests and replies (spec/10_formats.md): reading the fields of a request body, and
forming reply bodies. -/

namespace Sys2Proof.Machine

/-! ## Fields of a body (R188) -/

/-- The byte at an offset of a body. -/
def byteAt (body : List Byte) (i : Nat) : Byte := body.getD i 0

/-- A bit of the byte at an offset. -/
def bitAt (body : List Byte) (i bit : Nat) : Bool := (byteAt body i).getLsbD bit

/-- A two-byte field, most significant byte first. -/
def word16At (body : List Byte) (i : Nat) : BitVec 16 := byteAt body i ++ byteAt body (i + 1)

/-- A three-byte field, most significant byte first. -/
def word24At (body : List Byte) (i : Nat) : BitVec 24 := byteAt body i ++ byteAt body (i + 1) ++ byteAt body (i + 2)

/-- The bytes of a two-byte field. -/
def bytes16 (w : BitVec 16) : List Byte := [w.extractLsb' 8 8, w.extractLsb' 0 8]

/-- The bytes of a three-byte field. -/
def bytes24 (w : BitVec 24) : List Byte := [w.extractLsb' 16 8, w.extractLsb' 8 8, w.extractLsb' 0 8]

/-- The bytes of a four-byte field. -/
def bytes32 (w : BitVec 32) : List Byte := [w.extractLsb' 24 8, w.extractLsb' 16 8, w.extractLsb' 8 8, w.extractLsb' 0 8]

/-- A number in one byte. -/
def byteOf (n : Nat) : Byte := BitVec.ofNat 8 n

/-- A number in two bytes. -/
def bytesOf16 (n : Nat) : List Byte := bytes16 (BitVec.ofNat 16 n)

/-- A byte from its bits, bit 0 first; the bits not given are zero. -/
def byteOfBits (bits : List Bool) : Byte := byteOf (bits.foldr (fun b n => b.toNat + 2 * n) 0)

/-! ## Codes (section 10.2) -/

def StepKind.code : StepKind → Nat
  | .measure => 0
  | .contact => 1

def Role.code : Role → Nat
  | .srcHi => 0
  | .srcLo => 1
  | .snsHi => 2
  | .snsLo => 3
  | .guard => 4

/-- The place of a verdict in the summary's counts, in verdict code order (section 10.6). -/
def Verdict.index : Verdict → Fin 11
  | .pass => 0
  | .failLow => 1
  | .failHigh => 2
  | .overrange => 3
  | .noContact => 4
  | .learned => 5
  | .skipNail => 6
  | .skipCard => 7
  | .matrixFault => 8
  | .converterFault => 9
  | .aborted => 10

/-- The code of a last verdict, 0 for NOT_RUN. -/
def verdictCode : Option Verdict → Nat
  | none => 0
  | some v => v.index.val + 1

/-- The step state code of a slot: 0 FREE, 1 READY, 2 HELD, 3 PARKED. -/
def StepSlot.stateCode (ss : StepSlot) : Nat :=
  match ss.record with
  | none => 0
  | some r =>
    match r.status with
    | .ready => 1
    | .held _ _ _ => 2
    | .parked _ => 3

def NailState.code : NailState → Nat
  | .service => 0
  | .suspect => 1
  | .retired => 2

def CardState.code : CardState → Nat
  | .absent => 0
  | .census => 1
  | .online => 2
  | .offline => 3

def RunState.code : RunState → Nat
  | .idle => 0
  | .armed => 1
  | .running => 2
  | .draining => 3
  | .done => 4
  | .aborted => 5

def RunMode.code : RunMode → Nat
  | .test => 1
  | .contact => 2
  | .learn => 3

/-- The mode a mode byte names, if it names one (R66). -/
def RunMode.ofByte (b : Byte) : Option RunMode :=
  match b.toNat with
  | 1 => some .test
  | 2 => some .contact
  | 3 => some .learn
  | _ => none

def abortReasonCode : Option AbortReason → Nat
  | none => 0
  | some .drainRequest => 1
  | some .forceRequest => 2
  | some .fixtureOpen => 3

def LanePhase.code : LanePhase → Nat
  | .idle => 0
  | .closing => 1
  | .settling => 2
  | .measuring => 3
  | .releasing => 4

def Status.code : Status → Byte
  | .ok => 0x00
  | .deferred => 0x01
  | .started => 0x02
  | .busy => 0x10
  | .notReady => 0x11
  | .notActive => 0x12
  | .tableFull => 0x20
  | .slotInUse => 0x21
  | .noSuchStep => 0x22
  | .badRequest => 0x30
  | .badLength => 0x31
  | .badNail => 0x32
  | .dupNail => 0x33
  | .badRole => 0x34
  | .badLimits => 0x35
  | .nailRetired => 0x36
  | .nailInUse => 0x37

/-! ## Nails -/

/-- The card of a nail (00_scope.md, Nails, cards and crosspoints). -/
def cardOf (n : NailNo) : CardNo := ⟨n.val / 256, by omega⟩

/-- The crosspoint of a nail on its card. -/
def crosspointOf (n : NailNo) : Byte := byteOf (n.val % 256)

/-- The nails of a list with their roles, in list order (R3). -/
def NailList.entries (l : NailList) : List (Role × NailNo) :=
  [(.srcHi, l.srcHi), (.srcLo, l.srcLo)] ++ (l.snsHi.toList.map (fun n => (Role.snsHi, n)))
    ++ (l.snsLo.toList.map (fun n => (Role.snsLo, n))) ++ l.guards.map (fun n => (Role.guard, n))

/-- The nails of a list, in list order. -/
def NailList.toList (l : NailList) : List NailNo := l.entries.map Prod.snd

/-- The role in which a list names a nail, if it names it. -/
def NailList.roleOf (l : NailList) (n : NailNo) : Option Role :=
  (l.entries.find? (fun e => decide (e.2 = n))).map Prod.fst

/-- The list names the nail. -/
def NailList.names (l : NailList) (n : NailNo) : Bool := l.toList.contains n

/-- The list names the nail in SRC_HI or SNS_HI (R34, R47). -/
def NailList.namesHigh (l : NailList) (n : NailNo) : Bool := decide (l.srcHi = n) || decide (l.snsHi = some n)

/-- A nail list as a request body gives it, before its numbers are checked. -/
structure NailNames where
  srcHi : BitVec 16
  srcLo : BitVec 16
  snsHi : Option (BitVec 16)
  snsLo : Option (BitVec 16)
  guards : List (BitVec 16)
  deriving DecidableEq, Repr

/-- The nails of a body from an offset on, two bytes each in list order, by the declared presence bits and guard count
(section 10.3). -/
def readNails (body : List Byte) (i : Nat) (hasHi hasLo : Bool) (guards : Nat) : NailNames :=
  let afterHi := i + 4 + 2 * hasHi.toNat
  let afterLo := afterHi + 2 * hasLo.toNat
  { srcHi := word16At body i
    srcLo := word16At body (i + 2)
    snsHi := if hasHi then some (word16At body (i + 4)) else none
    snsLo := if hasLo then some (word16At body afterHi) else none
    guards := (List.range guards).map (fun g => word16At body (afterLo + 2 * g)) }

/-- The numbers given, in list order. -/
def NailNames.numbers (n : NailNames) : List (BitVec 16) :=
  [n.srcHi, n.srcLo] ++ n.snsHi.toList ++ n.snsLo.toList ++ n.guards

/-- The nail a number names; a number above 4095 is refused before this is read (R11). -/
def nailOf (w : BitVec 16) : NailNo := Fin.ofNat 4096 w.toNat

/-- The nail list, once its numbers have passed check 2 of R11. -/
def NailNames.toNailList (n : NailNames) : NailList :=
  { srcHi := nailOf n.srcHi, srcLo := nailOf n.srcLo, snsHi := n.snsHi.map nailOf, snsLo := n.snsLo.map nailOf,
    guards := n.guards.map nailOf }

/-! ## Parts of step requests (sections 10.3, 1.3, 1.4) -/

/-- Timing fields: the base range at one offset, and from another the settle class (low 3 bits), the capacitance (low 20
bits), the extra settle and the aperture. -/
def readTiming (body : List Byte) (rangeAt restAt : Nat) : Timing :=
  { baseRange := Fin.ofNat 7 (byteAt body rangeAt).toNat
    settleClass := (byteAt body restAt).extractLsb' 0 3
    capacitance := (word24At body (restAt + 1)).extractLsb' 0 20
    extraSettle := word16At body (restAt + 4)
    aperture := word16At body (restAt + 6) }

/-- The five limit values from an offset on, with the judge mode. -/
def readLimits (body : List Byte) (relative : Bool) (i : Nat) : LimitsGroup :=
  { relative := relative, lo := word24At body i, hi := word24At body (i + 3), nominal := word24At body (i + 6),
    tolLo := word16At body (i + 9), tolHi := word16At body (i + 11) }

/-- The judge mode in effect after the forcing of R4: RELATIVE only for a MEASURE record. -/
def relativeInEffect (k : StepKind) (g : LimitsGroup) : Bool := g.relative && decide (k = .measure)

/-- The limits stored: those of the judge mode in effect (R4, R5). -/
def Limits.ofGroup (k : StepKind) (g : LimitsGroup) : Limits :=
  if relativeInEffect k g then .relative g.nominal g.tolLo g.tolHi else .absolute g.lo g.hi

/-- The retry allowance stored: 0 for a CONTACT record, at most 2 for a MEASURE record (R4). -/
def storedRetry (k : StepKind) (b : Byte) : Fin 3 :=
  match k with
  | .contact => 0
  | .measure => if h : b.toNat < 3 then ⟨b.toNat, h⟩ else 2

/-- The first of a list of checks that fails decides the refusal (R11). A check is a failure condition and its refusal. -/
def firstFailing : List (Bool × Status) → Option Status
  | [] => none
  | (failed, st) :: rest => if failed then some st else firstFailing rest

/-- Checks 2 and 3 of R11 on the nail numbers given. -/
def nailNumberChecks (n : NailNames) : List (Bool × Status) :=
  [(n.numbers.any (fun w => decide (4095 < w.toNat)), .badNail), (!decide n.numbers.Nodup, .dupNail)]

/-- Checks 6 to 8 of R11 on a limits group. -/
def limitChecks (k : StepKind) (g : LimitsGroup) : List (Bool × Status) :=
  [ (!relativeInEffect k g && decide (g.hi.toInt < g.lo.toInt), .badLimits),
    (relativeInEffect k g && decide (g.nominal.toInt ≤ 0), .badLimits),
    (relativeInEffect k g && (decide (1000 < g.tolLo.toNat) || decide (9999 < g.tolHi.toNat)), .badLimits) ]

/-! ## STEP WRITE body -/

/-- A STEP WRITE body read by its layout. -/
structure WriteBody where
  slot : BitVec 16
  kind : StepKind
  barrier : Bool
  guardCount : Nat
  orderKey : BitVec 16
  rangeByte : Byte
  retryByte : Byte
  timing : Timing
  limits : LimitsGroup
  names : NailNames
  /-- the length implied by the declared sense presence and guard count (R189) -/
  impliedLength : Nat
  deriving DecidableEq, Repr

def readWrite (body : List Byte) : WriteBody :=
  let hasHi := bitAt body 2 2
  let hasLo := bitAt body 2 3
  let guards := ((byteAt body 2).extractLsb' 4 3).toNat
  { slot := word16At body 0
    kind := if bitAt body 2 0 then .contact else .measure
    barrier := bitAt body 2 1
    guardCount := guards
    orderKey := word16At body 3
    rangeByte := byteAt body 5
    retryByte := byteAt body 6
    timing := readTiming body 5 7
    limits := readLimits body (bitAt body 2 7) 15
    names := readNails body 28 hasHi hasLo guards
    impliedLength := 28 + 2 * (2 + (hasHi.toNat + hasLo.toNat) + guards) }

/-- The program stored by an accepted STEP WRITE (R13). -/
def WriteBody.program (w : WriteBody) : StepProgram :=
  { kind := w.kind, orderKey := w.orderKey, barrier := w.barrier, nails := w.names.toNailList, timing := w.timing,
    retryAllowance := storedRetry w.kind w.retryByte, limits := Limits.ofGroup w.kind w.limits }

/-- The learned and recorded fields after STEP WRITE (R6). -/
def StepStats.fresh : StepStats :=
  { offset := 0, learnCount := 0, lastVerdict := none, lastValue := none, lastDeviation := none, lastRange := none,
    consecutiveFails := 0, failTotal := 0, lastRun := none, settleClamped := false }

/-! ## STEP EDIT body -/

/-- A STEP EDIT body read by its layout: which groups its mask names, and their values at the offsets the groups before
them imply (section 10.3). -/
structure EditBody where
  slot : BitVec 16
  hasOrder : Bool
  hasNails : Bool
  hasTiming : Bool
  hasLimits : Bool
  hasRetry : Bool
  hasOffset : Bool
  hasCounts : Bool
  orderKey : BitVec 16
  barrier : Bool
  guardCount : Nat
  names : NailNames
  rangeByte : Byte
  timing : Timing
  limits : LimitsGroup
  retryByte : Byte
  offset : BitVec 24
  /-- the length implied by the mask and the nails group's own declarations (R189) -/
  impliedLength : Nat
  deriving DecidableEq, Repr

def readEdit (body : List Byte) : EditBody :=
  let nailsAt := 3 + 3 * (bitAt body 2 0).toNat
  let hasHi := bitAt body nailsAt 0
  let hasLo := bitAt body nailsAt 1
  let guards := ((byteAt body nailsAt).extractLsb' 2 3).toNat
  let nailsLength := 1 + 2 * (2 + (hasHi.toNat + hasLo.toNat) + guards)
  let timingAt := nailsAt + (if bitAt body 2 1 then nailsLength else 0)
  let limitsAt := timingAt + 9 * (bitAt body 2 2).toNat
  let retryAt := limitsAt + 14 * (bitAt body 2 3).toNat
  let offsetAt := retryAt + (bitAt body 2 4).toNat
  { slot := word16At body 0
    hasOrder := bitAt body 2 0
    hasNails := bitAt body 2 1
    hasTiming := bitAt body 2 2
    hasLimits := bitAt body 2 3
    hasRetry := bitAt body 2 4
    hasOffset := bitAt body 2 5
    hasCounts := bitAt body 2 6
    orderKey := word16At body 3
    barrier := bitAt body 5 0
    guardCount := guards
    names := readNails body (nailsAt + 1) hasHi hasLo guards
    rangeByte := byteAt body timingAt
    timing := readTiming body timingAt (timingAt + 1)
    limits := readLimits body (bitAt body limitsAt 0) (limitsAt + 1)
    retryByte := byteAt body retryAt
    offset := word24At body offsetAt
    impliedLength := offsetAt + 3 * (bitAt body 2 5).toNat }

/-- The edit an accepted body carries. -/
def EditBody.edit (e : EditBody) : StepEdit :=
  { order := if e.hasOrder then some (e.orderKey, e.barrier) else none
    nails := if e.hasNails then some e.names.toNailList else none
    timing := if e.hasTiming then some e.timing else none
    limits := if e.hasLimits then some e.limits else none
    retry := if e.hasRetry then some e.retryByte else none
    offset := if e.hasOffset then some e.offset else none
    counts := e.hasCounts }

/-- The mask of an edit (section 10.3); its reserved bit 7 is zero (log 14). -/
def StepEdit.mask (e : StepEdit) : Byte :=
  byteOfBits [e.order.isSome, e.nails.isSome, e.timing.isSome, e.limits.isSome, e.retry.isSome, e.offset.isSome, e.counts]

/-! ## Reply bodies -/

/-- The bytes of a reply frame: its header and its body (section 10.2). -/
def Reply.frame (r : Reply) : List Byte := [r.code, r.tag, r.status.code, byteOf r.body.length] ++ r.body

/-- The park reasons byte: bit 0 REQUESTED, bit 1 NAIL; for a HELD record its pending park (section 10.3). -/
def StepSlot.reasonsByte (ss : StepSlot) : Byte :=
  match ss.record with
  | none => 0
  | some r =>
    match r.status with
    | .ready => 0
    | .held pendingPark _ _ => byteOfBits [pendingPark]
    | .parked reasons => byteOfBits [reasons.requested, reasons.nail]

/-- The step state reply (section 10.3). -/
def stepStateBody (k : Slot) (ss : StepSlot) : List Byte :=
  bytesOf16 k.val ++ [byteOf ss.stateCode, ss.reasonsByte]

/-- The program part of a step, 26 bytes (section 10.3); the limits of the mode not in effect are zero (R5). -/
def StepProgram.bytes (p : StepProgram) : List Byte :=
  let relative := match p.limits with
    | .absolute _ _ => false
    | .relative _ _ _ => true
  [ byteOf (p.kind.code + 2 * p.barrier.toNat + 4 * p.nails.snsHi.isSome.toNat + 8 * p.nails.snsLo.isSome.toNat
      + 16 * p.nails.guards.length + 128 * relative.toNat) ]
    ++ bytes16 p.orderKey
    ++ [byteOf p.timing.baseRange.val, byteOf p.retryAllowance.val, byteOf p.timing.settleClass.toNat]
    ++ bytes24 (p.timing.capacitance.setWidth 24)
    ++ bytes16 p.timing.extraSettle ++ bytes16 p.timing.aperture
    ++ (match p.limits with
        | .absolute lo hi => bytes24 lo ++ bytes24 hi ++ bytes24 0 ++ bytes16 0 ++ bytes16 0
        | .relative nominal tolLo tolHi => bytes24 0 ++ bytes24 0 ++ bytes24 nominal ++ bytes16 tolLo ++ bytes16 tolHi)

/-- The step record, the reply to STEP READ (section 10.3). -/
def stepRecordBody (k : Slot) (ss : StepSlot) (r : StepRecord) : List Byte :=
  let retirePending := match r.status with
    | .held _ _ retire => retire
    | _ => false
  let deferred := match r.status with
    | .held _ d _ => d
    | _ => none
  bytesOf16 k.val ++ [byteOf ss.stateCode, ss.reasonsByte]
    ++ [byteOfBits [retirePending, deferred.isSome, ss.runMark, r.stats.settleClamped]]
    ++ [(deferred.map StepEdit.mask).getD 0]
    ++ r.program.bytes
    ++ bytes24 r.stats.offset ++ [r.stats.learnCount, byteOf (verdictCode r.stats.lastVerdict)]
    ++ [byteOfBits [r.stats.lastValue.isSome, r.stats.lastDeviation.isSome, r.stats.lastRange.isSome,
        r.stats.lastRun.isSome]]
    ++ bytes24 (r.stats.lastValue.getD 0) ++ bytes16 (r.stats.lastDeviation.getD 0)
    ++ [byteOf (r.stats.lastRange.getD 0), r.stats.consecutiveFails]
    ++ bytes16 r.stats.failTotal ++ bytes16 (r.stats.lastRun.getD 0)
    ++ r.program.nails.toList.flatMap (fun n => bytesOf16 n.val)

/-- All lane numbers in ascending order. -/
def allLanes : List LaneNo := [0, 1, 2, 3]

/-- All card numbers in ascending order. -/
def allCards : List CardNo := [0, 1, 2, 3, 4, 5, 6, 7, 8, 9, 10, 11, 12, 13, 14, 15]

/-- The bindings of a nail as bytes in ascending lane order: lane in bits 7 to 4, bus in bits 3 to 0 (section 10.4). -/
def NailEntry.bindingBytes (e : NailEntry) : List Byte :=
  allLanes.filterMap (fun l => (e.bindings[l]).map (fun b => byteOf (16 * l.val + b.code)))

/-- The nail entry, 14 bytes (section 10.4). -/
def nailEntryBody (n : NailNo) (e : NailEntry) : List Byte :=
  bytesOf16 n.val ++ [byteOf (cardOf n).val, crosspointOf n, byteOf e.state.code, byteOfBits [e.common]]
    ++ bytesOf16 e.refCount ++ [byteOf e.contactFails.toNat, byteOf e.bindingBytes.length]
    ++ e.bindingBytes ++ List.replicate (4 - e.bindingBytes.length) 0

/-- The next start of a walk's reply, 0xFFFF for its end (R27, section 10.3). -/
def nextStartBytes : Option Slot → List Byte
  | none => bytes16 0xFFFF
  | some k => bytesOf16 k.val

/-- The reply to STEP SCAN (section 10.3). -/
def scanBody (found : List Slot) (next : Option Slot) : List Byte :=
  [byteOf found.length] ++ nextStartBytes next ++ found.flatMap (fun k => bytesOf16 k.val)

/-- The reply to NAIL LOOKUP (section 10.4). -/
def lookupBody (refCount : Nat) (found : List (Slot × Role)) (next : Option Slot) : List Byte :=
  bytesOf16 refCount ++ [byteOf found.length] ++ nextStartBytes next
    ++ found.flatMap (fun e => bytesOf16 e.1.val ++ [byteOf e.2.code])

/-- The reply to CARD READ (section 10.5), with the times converted at tick length T (R53). -/
def cardBody (c : CardNo) (e : CardEntry) (T : Nat) : List Byte :=
  [byteOf c.val, byteOf e.state.code, byteOfBits [e.descriptor.isSome, e.checksumBad, e.paritySeen, e.timeoutSeen]]
    ++ (match e.descriptor with
        | none => List.replicate 7 0
        | some d => [d.cardType, d.operate, d.release] ++ bytesOf16 (microTicks d.operate.toNat T)
            ++ bytesOf16 (microTicks d.release.toNat T))

/-- The run summary record, 40 bytes (section 10.6). -/
def summaryBody (r : RunControl) : List Byte :=
  bytes16 r.number
    ++ [byteOf r.summary.mode.code, byteOfBits [r.summary.reverse], byteOf r.summary.weight.val, byteOf r.state.code,
        byteOf (abortReasonCode r.summary.abortReason),
        byteOfBits [r.summary.notRun.isSome, decide (r.fixture = .closed)]]
    ++ bytes32 r.summary.elapsed
    ++ r.summary.verdicts.toList.flatMap bytesOf16
    ++ bytesOf16 r.summary.dispatched ++ bytesOf16 r.summary.retries ++ bytesOf16 (r.summary.notRun.getD 0)

/-- The reply to TIMEBASE SET (section 10.6). -/
def timebaseBody (t : Timebase) : List Byte :=
  [byteOf t.prescale.toNat] ++ bytesOf16 t.divisor.toNat ++ bytes32 (BitVec.ofNat 32 t.tickLength)

/-- The five settings, 8 bytes (section 10.6). -/
def settingsBody (c : Settings) : List Byte :=
  [byteOf c.contactThreshold.toNat] ++ bytes16 c.ackTimeout ++ bytes16 c.converterMargin
    ++ [byteOf c.filterCode.toNat] ++ bytes16 c.censusTimeout

/-- The reply to STATUS, formed before any latch is cleared (R181, section 10.6). -/
def statusBody (s : State) : List Byte :=
  [s.latches.toByte, s.enables.toByte, byteOf s.run.state.code, byteOfBits [s.census.isSome]]
    ++ allLanes.map (fun l => byteOf (s.lanes[l]).phase.code)

end Sys2Proof.Machine
end

