-- ==== Sys2Proof/Machine/Table.lean ====
section
/-! DEFINITION. Sparse tables: a table of n entries held as the list of the entries that differ from a default, with
strictly rising keys (log 10). The Step Table and the Nail Map are held so. `d` is what an unlisted entry reads as. -/

namespace Sys2Proof.Machine

/-- The entry of a key. -/
def Table.get {n : Nat} {α : Type} (d : α) : List (Fin n × α) → Fin n → α
  | [], _ => d
  | (k', v) :: t, k => if k' = k then v else Table.get d t k

/-- The table with a key no longer listed. -/
def Table.erase {n : Nat} {α : Type} (t : List (Fin n × α)) (k : Fin n) : List (Fin n × α) :=
  t.filter (fun e => decide (e.1 ≠ k))

/-- The table with an entry put before the first higher key. -/
def Table.insert {n : Nat} {α : Type} (k : Fin n) (v : α) : List (Fin n × α) → List (Fin n × α)
  | [] => [(k, v)]
  | e :: t => if k < e.1 then (k, v) :: e :: t else e :: Table.insert k v t

/-- The table with an entry written: a default is not listed. -/
def Table.set {n : Nat} {α : Type} [DecidableEq α] (d : α) (t : List (Fin n × α)) (k : Fin n) (v : α) :
    List (Fin n × α) :=
  if v = d then Table.erase t k else Table.insert k v (Table.erase t k)

/-- The table with every listed entry changed by f, which leaves the default as it is. -/
def Table.mapAll {n : Nat} {α : Type} [DecidableEq α] (d : α) (f : α → α) : List (Fin n × α) → List (Fin n × α)
  | [] => []
  | (k, v) :: t => if f v = d then Table.mapAll d f t else (k, f v) :: Table.mapAll d f t

/-- The canonical form: keys strictly rising, and no default listed. -/
def Table.wf {n : Nat} {α : Type} [DecidableEq α] (d : α) (t : List (Fin n × α)) : Bool :=
  decide (t.Pairwise (fun a b => a.1 < b.1)) && t.all (fun e => decide (e.2 ≠ d))

end Sys2Proof.Machine
end

