-- ==== Sys2Proof/Machine/Ops.lean ====
section
/-! DEFINITION. The named operations over the records of the part: reading and writing entries, reference counts, applying
edits, resolving a released record, the run's end, and recording a verdict. -/

namespace Sys2Proof.Machine

/-! ## Entries -/

/-- The slot record of a slot (R1). -/
def State.slotAt (s : State) (k : Slot) : StepSlot := Table.get StepSlot.blank s.steps k

/-- A slot record written. -/
def State.setSlot (s : State) (k : Slot) (v : StepSlot) : State :=
  { s with steps := Table.set StepSlot.blank s.steps k v }

/-- The record in a slot, absent while FREE. -/
def State.recordAt (s : State) (k : Slot) : Option StepRecord := (s.slotAt k).record

/-- A record written into a slot; the run mark stays. -/
def State.setRecord (s : State) (k : Slot) (r : StepRecord) : State :=
  s.setSlot k { runMark := (s.slotAt k).runMark, record := some r }

/-- The entry of a nail (R29). -/
def State.nailAt (s : State) (n : NailNo) : NailEntry := Table.get NailEntry.blank s.nails n

/-- A nail entry written. -/
def State.setNail (s : State) (n : NailNo) (e : NailEntry) : State :=
  { s with nails := Table.set NailEntry.blank s.nails n e }

/-- A lane's record (R108). -/
def State.laneAt (s : State) (l : LaneNo) : Lane := s.lanes[l]

/-- A lane's record written. -/
def State.setLane (s : State) (l : LaneNo) (v : Lane) : State := { s with lanes := s.lanes.set l.val v l.isLt }

/-- A Converter Port (R116). -/
def State.portAt (s : State) (l : LaneNo) : ConverterPort := s.ports[l]

/-- A Converter Port written. -/
def State.setPort (s : State) (l : LaneNo) (v : ConverterPort) : State :=
  { s with ports := s.ports.set l.val v l.isLt }

/-- A card's entry (R154). -/
def State.cardAt (s : State) (c : CardNo) : CardEntry := s.cards[c]

/-- A card's entry written. -/
def State.setCard (s : State) (c : CardNo) (v : CardEntry) : State := { s with cards := s.cards.set c.val v c.isLt }

/-- The run summary written. -/
def State.setSummary (s : State) (m : RunSummary) : State := { s with run := { s.run with summary := m } }

/-- The tick length as it stands (R49). -/
def State.tick (s : State) : Nat := s.timebase.tickLength

/-- A run is in progress: ARMED, RUNNING or DRAINING (R63). -/
def RunState.active : RunState → Bool
  | .armed => true
  | .running => true
  | .draining => true
  | _ => false

/-- The nail lies on a card that is ONLINE. -/
def State.nailOnline (s : State) (n : NailNo) : Bool := decide ((s.cardAt (cardOf n)).state = .online)

/-- Every lane is IDLE. -/
def State.allLanesIdle (s : State) : Bool := allLanes.all (fun l => decide ((s.laneAt l).phase = .idle))

/-- The slot and record a lane holds (R109). -/
def State.heldBy (s : State) (l : LaneNo) : Option (Slot × StepRecord) :=
  match (s.laneAt l).heldSlot with
  | none => none
  | some k => (s.recordAt k).map (fun r => (k, r))

/-- The nails of the step a lane holds, with their roles, in list order; none while it holds no step. -/
def State.heldNails (s : State) (l : LaneNo) : List (Role × NailNo) :=
  match s.heldBy l with
  | none => []
  | some (_, r) => r.program.nails.entries

/-! ## The Dispatcher's opportunities (R92, R93) -/

/-- A dispatch opportunity reported: a WAITING Dispatcher becomes EXAMINING in a RUNNING run; at any other time the report
changes nothing. -/
def State.reportOpportunity (s : State) : State :=
  if s.run.state = .running then { s with exam := .examining } else s

/-! ## Park reasons and reference counts -/

/-- The status of a record that is not HELD, by its park reasons (R8). -/
def StepStatus.ofReasons (p : ParkReasons) : StepStatus := if p.requested || p.nail then .parked p else .ready

/-- The park reasons of a record that is not HELD. -/
def StepStatus.reasons : StepStatus → ParkReasons
  | .parked p => p
  | _ => { requested := false, nail := false }

/-- A record that is HELD. -/
def StepStatus.isHeld : StepStatus → Bool
  | .held _ _ _ => true
  | _ => false

/-- A nail of the list is RETIRED (R8). -/
def State.anyRetired (s : State) (l : NailList) : Bool := l.toList.any (fun n => decide ((s.nailAt n).state = .retired))

/-- A nail's reference count changed. -/
def State.setRefCount (s : State) (n : NailNo) (count : Nat) : State :=
  s.setNail n { s.nailAt n with refCount := count }

/-- The reference counts of nails raised by one each (R31). -/
def State.raiseRefs (s : State) : List NailNo → State
  | [] => s
  | n :: ns => (s.setRefCount n ((s.nailAt n).refCount + 1)).raiseRefs ns

/-- The reference counts of nails lowered by one each (R31). -/
def State.lowerRefs (s : State) : List NailNo → State
  | [] => s
  | n :: ns => (s.setRefCount n ((s.nailAt n).refCount - 1)).lowerRefs ns

/-- A change of nail list: nails leaving the list are lowered, nails entering it raised, the others keep their count
(R16). -/
def State.moveRefs (s : State) (before after : NailList) : State :=
  (s.lowerRefs (before.toList.filter (fun n => !after.names n))).raiseRefs
    (after.toList.filter (fun n => !before.names n))

/-! ## Edits, freeing and resolution -/

/-- The groups of an edit replace their fields (R14), with the forcing and clamping of R4 and the storage of R5. -/
def StepRecord.edited (r : StepRecord) (e : StepEdit) : StepRecord :=
  { program :=
      { kind := r.program.kind
        orderKey := (e.order.map Prod.fst).getD r.program.orderKey
        barrier := (e.order.map Prod.snd).getD r.program.barrier
        nails := e.nails.getD r.program.nails
        timing := e.timing.getD r.program.timing
        retryAllowance := (e.retry.map (storedRetry r.program.kind)).getD r.program.retryAllowance
        limits := (e.limits.map (Limits.ofGroup r.program.kind)).getD r.program.limits }
    stats :=
      { r.stats with
        offset := e.offset.getD r.stats.offset
        learnCount := if e.counts then 0 else r.stats.learnCount
        consecutiveFails := if e.counts then 0 else r.stats.consecutiveFails
        failTotal := if e.counts then 0 else r.stats.failTotal }
    status := r.status }

/-- An edit applied to a READY or PARKED record (R16): fields, reference counts, and the NAIL reason by the new list. -/
def State.applyEdit (s : State) (k : Slot) (r : StepRecord) (e : StepEdit) : State :=
  match e.nails with
  | none => s.setRecord k (r.edited e)
  | some nails =>
    (s.moveRefs r.program.nails nails).setRecord k
      { r.edited e with status := StepStatus.ofReasons { r.status.reasons with nail := s.anyRetired nails } }

/-- A slot becomes FREE: every field but its run mark is discarded and the reference counts of its nails are lowered
(R9). -/
def State.freeSlot (s : State) (k : Slot) (r : StepRecord) : State :=
  (s.lowerRefs r.program.nails.toList).setSlot k { runMark := (s.slotAt k).runMark, record := none }

/-- The resolution of a HELD record, by the five steps of R25. A record that is not HELD is left alone. -/
def State.resolve (s : State) (k : Slot) : State :=
  match s.recordAt k with
  | none => s
  | some r =>
    match r.status with
    | .ready => s
    | .parked _ => s
    | .held pendingPark deferred retirePending =>
      if retirePending then s.freeSlot k r
      else
        let edited := match deferred with
          | none => r
          | some e => r.edited e
        (s.moveRefs r.program.nails edited.program.nails).setRecord k
          { edited with
            status := StepStatus.ofReasons { requested := pendingPark, nail := s.anyRetired edited.program.nails } }

/-! ## Candidates and the end of a run -/

/-- The kinds a mode measures (R68). -/
def RunMode.measures (m : RunMode) (k : StepKind) : Bool :=
  match m, k with
  | .test, _ => true
  | .contact, .contact => true
  | .contact, .measure => false
  | .learn, .measure => true
  | .learn, .contact => false

/-- A slot is a candidate: its record READY, of a kind the mode measures, its run mark clear (R68). -/
def StepSlot.isCandidate (m : RunMode) (ss : StepSlot) : Bool :=
  match ss.record with
  | none => false
  | some r => !ss.runMark && decide (r.status = .ready) && m.measures r.program.kind

/-- The candidates of the run, in slot order (R68). A slot that is not listed is FREE. -/
def State.candidates (s : State) : List Slot :=
  (s.steps.filter (fun e => e.2.isCandidate s.run.summary.mode)).map Prod.fst

/-- A slot counts as not run: not FREE, of a measured kind, its run mark clear (R77). -/
def StepSlot.isNotRun (m : RunMode) (ss : StepSlot) : Bool :=
  match ss.record with
  | none => false
  | some r => !ss.runMark && m.measures r.program.kind

/-- The not-run count (R77). -/
def State.notRunCount (s : State) : Nat := (s.steps.filter (fun e => e.2.isNotRun s.run.summary.mode)).length

/-- The closing of a run on its entry into DONE or ABORTED (R77). -/
def State.closeRun (s : State) (final : RunState) : State :=
  ({ s with run := { s.run with state := final, summary := { s.run.summary with notRun := some s.notRunCount } } }).latch
    .runDone

/-- Run Control's test of its end conditions: DONE for a RUNNING run with no candidate and all lanes IDLE (R76), ABORTED
for a DRAINING run with all lanes IDLE (R83). -/
def State.testRunEnd (s : State) : State :=
  if s.run.state = .running ∧ s.allLanesIdle = true ∧ s.candidates = [] then s.closeRun .done
  else if s.run.state = .draining ∧ s.allLanesIdle = true then s.closeRun .aborted
  else s

/-! ## Recording a verdict (R147) -/

/-- The Nail Map's side of a verdict on a CONTACT step, for its SRC_HI nail (R39, R40, R149). -/
def State.contactVerdict (s : State) (n : NailNo) (v : Verdict) : State :=
  let e := s.nailAt n
  match v with
  | .noContact =>
    let fails := raiseSaturating e.contactFails
    if e.state = .service ∧ s.settings.contactThreshold.toNat ≤ fails.toNat then
      (s.setNail n { e with contactFails := fails, state := .suspect }).latch .nailSuspect
    else s.setNail n { e with contactFails := fails }
  | .pass =>
    if e.state = .suspect then (s.setNail n { e with contactFails := 0, state := .service }).reportOpportunity
    else s.setNail n { e with contactFails := 0 }
  | _ => s

/-- The summary count of a verdict raised by one (R75). -/
def State.countVerdict (s : State) (v : Verdict) : State :=
  s.setSummary { s.run.summary with verdicts := s.run.summary.verdicts.set v.index.val (s.run.summary.verdicts[v.index] + 1) }

/-- The Judge Unit's write path: the record, the contact nail of a CONTACT record, and the summary, in one event (R147).
A FREE slot takes no verdict (R24). -/
def State.recordVerdict (s : State) (k : Slot) (w : VerdictWrite) : State :=
  match s.recordAt k with
  | none => s
  | some r =>
    let written := s.setSlot k
      { runMark := true
        record := some { r with stats := r.stats.afterVerdict s.run.summary.mode s.run.number w } }
    let handed := match r.program.kind with
      | .contact => written.contactVerdict r.program.nails.srcHi w.verdict
      | .measure => written
    handed.countVerdict w.verdict

end Sys2Proof.Machine
end

