-- ==== Sys2Proof/Machine/LaneOps.lean ====
section
/-! DEFINITION. The shared operations of the measurement lanes (spec/06_measurement_lanes_and_converter_ports.md): settling,
START, entering RELEASING, the OPEN sequence, the end of a release, and the ends decided from outside. A lane places a
request by setting it to waiting; the arbiter grants when the event has placed all of them (log 16). -/

namespace Sys2Proof.Machine

/-- The nails of a held step whose CLOSE was acknowledged: the first closed-count nails of its list (R108). -/
def State.closedNails (s : State) (l : LaneNo) : List NailNo :=
  ((s.heldNails l).take (s.laneAt l).closedCount).map Prod.snd

/-- The release set named at the entry to RELEASING: the ONLINE cards that carry a closed nail (R121). -/
def State.namedReleaseSet (s : State) (l : LaneNo) : List CardNo :=
  allCards.filter (fun c => decide ((s.cardAt c).state = .online) && (s.closedNails l).any (fun n => decide (cardOf n = c)))

/-- The release time of a card in microseconds; an absent descriptor counts 0 (log 17). -/
def State.releaseTime (s : State) (c : CardNo) : Nat := ((s.cardAt c).descriptor.map (fun d => d.release.toNat)).getD 0

/-- The operate time of a card in microseconds; an absent descriptor counts 0 (log 17). -/
def State.operateTime (s : State) (c : CardNo) : Nat := ((s.cardAt c).descriptor.map (fun d => d.operate.toNat)).getD 0

/-- Every binding of a lane removed from a nail entry (R38). -/
def NailEntry.unbind (l : LaneNo) (e : NailEntry) : NailEntry := { e with bindings := e.bindings.set l.val none l.isLt }

/-- Every binding of a lane removed from the Nail Map (R38). -/
def State.freeBindings (s : State) (l : LaneNo) : State :=
  { s with nails := Table.mapAll NailEntry.blank (NailEntry.unbind l) s.nails }

/-- The end of a lane's step, in the order of R123: bindings, resolution, the lane IDLE, the opportunity, the run end. -/
def State.endRelease (s : State) (l : LaneNo) : State :=
  let freed := s.freeBindings l
  let resolved := match (s.laneAt l).heldSlot with
    | none => freed
    | some k => freed.resolve k
  ((resolved.setLane l Lane.blank).reportOpportunity).testRunEnd

/-- The end of the OPEN sequence: the release wait is computed from the release set and started; a wait of 0 expires in
this event (R122, R54, R50). -/
def State.startReleaseWait (s : State) (l : LaneNo) : State :=
  let wait := releaseWaitTicks ((s.laneAt l).releaseSet.map s.releaseTime) s.tick
  let opened := s.setLane l { s.laneAt l with openPosition := 0 }
  if wait = 0 then opened.endRelease l
  else opened.setLane l { opened.laneAt l with timer := some (.releaseWait wait) }

/-- The OPEN sequence from an open position on (R122): a nail on an ONLINE card is requested, the others are skipped. -/
def State.openSequence (l : LaneNo) : Nat → State → State
  | 0, s => s.startReleaseWait l
  | n + 1, s =>
    match (s.heldNails l)[n]? with
    | none => State.openSequence l n s
    | some (_, nail) =>
      if s.nailOnline nail then s.setLane l { s.laneAt l with openPosition := n + 1, linkRequest := .waiting }
      else State.openSequence l n s

/-- The entry to RELEASING with a verdict (R121): the verdict is written and counted, the release set named, and the OPEN
sequence begun. A waiting link request is withdrawn and a running lane timer cancelled. -/
def State.enterReleasing (s : State) (l : LaneNo) (w : VerdictWrite) : State :=
  let recorded := match (s.laneAt l).heldSlot with
    | none => s
    | some k => s.recordVerdict k w
  State.openSequence l (s.laneAt l).closedCount
    (recorded.setLane l { s.laneAt l with
      phase := .releasing, releaseSet := s.namedReleaseSet l, openPosition := (s.laneAt l).closedCount, pendingEnd := none,
      linkRequest := .none, timer := none })

/-- The verdict of an end decided without a reading (R124, R126). -/
def PendingEnd.verdict : PendingEnd → Verdict
  | .aborted => .aborted
  | .matrixFault => .matrixFault

/-- The port's outstanding START cleared (R116). -/
def State.clearOutstanding (s : State) (l : LaneNo) : State := s.setPort l { s.portAt l with outstanding := none }

/-- An order to abandon or an offline notice taken by a lane: the tables of R124 and R126 differ only in the verdict. -/
def State.endLaneWith (s : State) (l : LaneNo) (e : PendingEnd) : State :=
  let lane := s.laneAt l
  let ended := VerdictWrite.bare e.verdict none
  match lane.phase with
  | .idle => s
  | .closing =>
    if lane.linkRequest = .inFlight then
      match lane.pendingEnd with
      | some _ => s
      | none => s.setLane l { lane with pendingEnd := some e }
    else s.enterReleasing l ended
  | .settling => s.enterReleasing l ended
  | .measuring => (s.clearOutstanding l).enterReleasing l ended
  | .releasing => s

/-- The settle-clamped flag written into the held record (R60). -/
def State.writeClamped (s : State) (l : LaneNo) (flag : Bool) : State :=
  match s.heldBy l with
  | none => s
  | some (k, r) => s.setRecord k { r with stats := { r.stats with settleClamped := flag } }

/-- START sent to the lane's converter, and the converter timeout started (R115, R116, R62). -/
def State.sendStart (s : State) (l : LaneNo) (aperture : BitVec 16) : State :=
  let lane := s.laneAt l
  let port := s.portAt l
  let number := port.startNumber + 1
  (s.setPort l { startNumber := number, outstanding := some number,
                 sentStart := some { number := number, range := lane.rangeInUse, aperture := aperture } }).setLane l
    { lane with
      phase := .measuring
      timer := some (.converterTimeout (aperture.toNat + s.settings.converterMargin.toNat)) }

/-- A computed settle taken up: the flag is written, the settle timer started and the lane SETTLING; a settle of 0 expires
in this event and START is sent (R113, R115, R119, R50). -/
def State.startSettle (s : State) (l : LaneNo) (aperture : BitVec 16) (settle : Nat × Bool) : State :=
  let flagged := s.writeClamped l settle.2
  if settle.1 = 0 then (flagged.setLane l { flagged.laneAt l with phase := .settling, timer := none }).sendStart l aperture
  else flagged.setLane l { flagged.laneAt l with phase := .settling, timer := some (.settle settle.1) }

/-- The largest operate time among the distinct cards of a nail list (R55). -/
def State.largestOperate (s : State) (nails : NailList) : Nat :=
  largestTime (nails.toList.map (fun n => s.operateTime (cardOf n)))

/-- An acknowledged CLOSE of a lane (R113). -/
def State.closeCompleted (s : State) (l : LaneNo) : State :=
  let lane := { s.laneAt l with linkRequest := LinkRequest.none, closedCount := (s.laneAt l).closedCount + 1 }
  let raised := s.setLane l lane
  match lane.pendingEnd with
  | some e => raised.enterReleasing l (VerdictWrite.bare e.verdict none)
  | none =>
    match s.heldBy l with
    | none => raised
    | some (_, r) =>
      if lane.closedCount < r.program.nails.entries.length then raised.setLane l { lane with linkRequest := .waiting }
      else
        raised.startSettle l r.program.timing.aperture
          (firstSettle r.program.timing (s.largestOperate r.program.nails) s.tick)

/-- A completed OPEN of a lane, OK or with a failure: on with the sequence (R122). -/
def State.openCompleted (s : State) (l : LaneNo) : State :=
  State.openSequence l ((s.laneAt l).openPosition - 1)
    (s.setLane l { s.laneAt l with linkRequest := .none, openPosition := (s.laneAt l).openPosition - 1 })

/-- A lane receives the completion OK of its command (R111, R113, R122). -/
def State.laneCommandOk (s : State) (l : LaneNo) : State :=
  match (s.laneAt l).phase with
  | .closing => s.closeCompleted l
  | .releasing => s.openCompleted l
  | _ => s.setLane l { s.laneAt l with linkRequest := .none }

/-- A lane receives the failure of its command: a failed CLOSE ends the step by its pending end (R114), a failed OPEN goes
on with the sequence (R122). -/
def State.laneCommandFailed (s : State) (l : LaneNo) : State :=
  let lane := { s.laneAt l with linkRequest := LinkRequest.none }
  match lane.phase with
  | .closing =>
    (s.setLane l lane).enterReleasing l
      (VerdictWrite.bare ((lane.pendingEnd.map PendingEnd.verdict).getD .matrixFault) none)
  | .releasing => s.openCompleted l
  | _ => s.setLane l lane

/-- The command of a lane's link request: in CLOSING the CLOSE of the next nail of the list, in RELEASING the OPEN of the
nail at the open position (R112, R122). -/
def State.laneCommand (s : State) (l : LaneNo) : Option LinkCommand :=
  let lane := s.laneAt l
  match lane.phase with
  | .closing =>
    ((s.heldNails l)[lane.closedCount]?).map (fun e => .close (cardOf e.2) (crosspointOf e.2) l e.1)
  | .releasing =>
    ((s.heldNails l)[lane.openPosition - 1]?).map (fun e => .openOne (cardOf e.2) (crosspointOf e.2) l e.1)
  | _ => none

end Sys2Proof.Machine
end

