-- ==== Sys2Proof/Machine/LinkOps.lean ====
section
/-! DEFINITION. The shared operations of the Matrix Link and the census engine
(spec/08_matrix_cards_and_the_matrix_link.md): the arbiter, command failure, offline notices, and the course of a census. -/

namespace Sys2Proof.Machine

/-- The card a command is addressed to (R158). -/
def LinkCommand.card : LinkCommand → CardNo
  | .close c _ _ _ => c
  | .openOne c _ _ _ => c
  | .openAll c => c
  | .identify c => c

/-- A command is IDENTIFY: its timer is the census timer and its answer a descriptor (R161). -/
def LinkCommand.isIdentify : LinkCommand → Bool
  | .identify _ => true
  | _ => false

/-- The lane of a rank: ranks 0 to 3 are the lanes, rank 4 is the census engine (R159). -/
def laneOfRank (r : Fin 5) : Option LaneNo := if h : r.val < 4 then some ⟨r.val, h⟩ else none

/-- The rank of a lane (R159). -/
def rankOfLane (l : LaneNo) : Fin 5 := ⟨l.val, by omega⟩

/-- The requester of a rank waits for a grant. -/
def State.waits (s : State) (r : Fin 5) : Bool :=
  match laneOfRank r with
  | some l => decide ((s.laneAt l).linkRequest = .waiting)
  | none =>
    match s.census with
    | none => false
    | some c => decide (c.request = .waiting)

/-- The ranks after a rank, counting 0, 1, 2, 3, 4, 0 and onward, that rank last (R159). -/
def ranksAfter (r : Fin 5) : List (Fin 5) := [r + 1, r + 2, r + 3, r + 4, r]

/-- The first waiting requester after a rank (R159). -/
def State.nextWaiting (s : State) (r : Fin 5) : Option (Fin 5) := (ranksAfter r).find? (fun x => s.waits x)

/-- The count of the timer of a command as it is sent (R161). -/
def State.commandTicks (s : State) (c : LinkCommand) : Nat :=
  if c.isIdentify then s.settings.censusTimeout.toNat else s.settings.ackTimeout.toNat

/-- A command sent under a grant: the link is busy, its timer runs, and the frame stands on MLTX (R159, R161). -/
def State.sendCommand (s : State) (r : Fin 5) (c : LinkCommand) : State :=
  { s with
    link :=
      { lastGranted := r
        inFlight := some { requester := r, command := c, resent := false, timer := s.commandTicks c }
        sentCommand := some c } }

/-- The census engine's command (R165, R166). -/
def Census.command (c : Census) : LinkCommand :=
  match c.stage with
  | .identify => .identify c.current
  | .openAll => .openAll c.current

/-- The grants of one event (R159, R160), at most `fuel` of them: a lane's command to a card that is not ONLINE is not sent
and fails at once, the link stays free, and the next waiting requester after the rank just served is granted. Such a
failure leaves its lane without a request to a card that is not ONLINE, so no event makes more than four of them. -/
def State.grantFrom : Nat → Fin 5 → State → State
  | 0, _, s => s
  | fuel + 1, last, s =>
    if s.link.inFlight.isSome then s
    else
      match s.nextWaiting last with
      | none => s
      | some r =>
        match laneOfRank r with
        | none =>
          match s.census with
          | none => s
          | some c => { (s.sendCommand r c.command) with census := some { c with request := .inFlight } }
        | some l =>
          match s.laneCommand l with
          | some c =>
            if (s.cardAt c.card).state = .online then
              (s.sendCommand r c).setLane l { s.laneAt l with linkRequest := .inFlight }
            else State.grantFrom fuel r (({ s with link := { s.link with lastGranted := r } }).laneCommandFailed l)
          | none => State.grantFrom fuel r (({ s with link := { s.link with lastGranted := r } }).laneCommandFailed l)

/-- The arbiter at the end of an event that placed requests or freed the link (R159). -/
def State.arbitrate (s : State) : State := State.grantFrom 5 s.link.lastGranted s

/-- The link free: the command in flight has completed (R159). -/
def State.freeLink (s : State) : State := { s with link := { s.link with inFlight := none } }

/-- A card becomes OFFLINE: CARD_OFFLINE is latched, and every lane whose held record names a nail on the card receives the
offline notice, in the same event (R126, R162, R179). -/
def State.cardOffline (s : State) (c : CardNo) : State :=
  allLanes.foldl
    (fun t l => if (t.heldNails l).any (fun e => decide (cardOf e.2 = c)) then t.endLaneWith l .matrixFault else t)
    ((s.setCard c { s.cardAt c with state := .offline }).latch .cardOffline)

/-- The census goes on to the next card it covers, or ends and latches CENSUS_DONE (R165, R166). -/
def State.censusNext (s : State) : State :=
  match s.census with
  | none => s
  | some c =>
    match c.remaining with
    | [] => ({ s with census := none }).latch .censusDone
    | next :: rest =>
      { s with census := some { current := next, remaining := rest, stage := .identify, request := .waiting } }

/-- A sent command completes with a failure at its requester (R162 step 5): a lane acts by R114 or R122, the census engine
goes on to its next card. -/
def State.commandFailed (s : State) (r : Fin 5) : State :=
  match laneOfRank r with
  | some l => s.laneCommandFailed l
  | none => s.censusNext

/-- The failure of a sent command, by the six steps of R162; a second PARITY to IDENTIFY has the same effects (R165). -/
def State.failInFlight (s : State) (f : InFlight) (timedOut : Bool) : State :=
  let c := f.command.card
  let flagged := if timedOut then s.setCard c { s.cardAt c with timeoutSeen := true } else s
  (((flagged.cardOffline c).commandFailed f.requester).freeLink).arbitrate

/-- A census of some cards starts, given as its lowest card and the others in ascending order: each enters CENSUS with its
descriptor fields absent, and IDENTIFY of the lowest is placed and, the link being free, granted (R164). -/
def State.startCensus (s : State) (first : CardNo) (others : List CardNo) : State :=
  let entered := (first :: others).foldl
    (fun t c => t.setCard c { t.cardAt c with state := .census, descriptor := none }) s
  ({ entered with
      census := some { current := first, remaining := others, stage := .identify, request := .waiting } }).arbitrate

/-- Every busy lane is ordered to abandon its step (R80, R124). When the link is free and several lanes place an OPEN in
this event, the first of them to be granted is a free value (log 6). -/
def State.abandonAll (s : State) : State :=
  let ordered := allLanes.foldl (fun t l => t.endLaneWith l .aborted) s
  if s.link.inFlight.isNone ∧ 2 ≤ (allLanes.filter (fun l => ordered.waits (rankOfLane l))).length then
    State.grantFrom 5 (Config.freeRank s.freeDraws) { ordered with freeDraws := s.freeDraws + 1 }
  else ordered.arbitrate

end Sys2Proof.Machine
end

