-- ==== Sys2Proof/Machine/DispatcherEvents.lean ====
section
/-! DEFINITION. The Dispatcher (spec/05_the_dispatcher.md): EXAMINATION_STEP. -/

namespace Sys2Proof.Machine

/-! ## Walk order and window (R89, R90) -/

/-- The order key of a slot's record. -/
def State.keyAt (s : State) (k : Slot) : Nat := ((s.recordAt k).map (fun r => r.program.orderKey.toNat)).getD 0

/-- A slot comes before another in walk order (R89). -/
def State.before (s : State) (a b : Slot) : Bool :=
  if s.run.summary.reverse then decide (s.keyAt b < s.keyAt a ∨ (s.keyAt b = s.keyAt a ∧ b < a))
  else decide (s.keyAt a < s.keyAt b ∨ (s.keyAt a = s.keyAt b ∧ a < b))

/-- A slot put into a list in walk order. -/
def State.placeInWalk (s : State) (k : Slot) : List Slot → List Slot
  | [] => [k]
  | x :: xs => if s.before k x then k :: x :: xs else x :: s.placeInWalk k xs

/-- The candidates in walk order (R89). -/
def State.walk (s : State) : List Slot := s.candidates.foldr s.placeInWalk []

/-- The window: the first eight candidates in walk order (R90). -/
def State.window (s : State) : List Slot := s.walk.take 8

/-! ## The tests of an entry (R95 to R102) -/

/-- A nail of the list lies on a card that is not ONLINE (R95). -/
def State.touchesDeadCard (s : State) (r : StepRecord) : Bool := r.program.nails.toList.any (fun n => !s.nailOnline n)

/-- A nail of the list is SUSPECT, the SRC_HI nail of a CONTACT record not counted (R96). -/
def State.touchesSuspect (s : State) (r : StepRecord) : Bool :=
  r.program.nails.entries.any (fun e =>
    decide ((s.nailAt e.2).state = .suspect) && !(decide (e.1 = .srcHi) && decide (r.program.kind = .contact)))

/-- The lowest-numbered IDLE lane (R102). -/
def State.idleLane (s : State) : Option LaneNo := allLanes.find? (fun l => decide ((s.laneAt l).phase = .idle))

/-- A lane holds a record whose barrier mark, as dispatched, is yes (R99). -/
def State.barrierHeld (s : State) : Bool :=
  allLanes.any (fun l => ((s.heldBy l).map (fun x => x.2.program.barrier)).getD false)

/-- The Nail Map can bind every nail of a list to a lane: each nail that is not common is unbound, and a common nail has no
pair for the lane (R36, R37, R100, R101). -/
def State.bindable (s : State) (l : LaneNo) (nails : NailList) : Bool :=
  nails.toList.all (fun n =>
    if (s.nailAt n).common then ((s.nailAt n).bindings[l]).isNone
    else (s.nailAt n).bindings.toList.all Option.isNone)

/-- What an examination step does (R93). -/
inductive Decision where
  | skip (k : Slot) (v : Verdict)
  | dispatch (k : Slot) (l : LaneNo)
  | nothing
  deriving DecidableEq, Repr

/-- The entries of the window tested in order; `front` says whether the first of them is the front of the window (R93). -/
def State.examine (s : State) : Bool → List Slot → Decision
  | _, [] => .nothing
  | front, k :: rest =>
    match s.recordAt k with
    | none => s.examine false rest
    | some r =>
      if s.touchesDeadCard r then .skip k .skipCard
      else if s.touchesSuspect r then .skip k .skipNail
      else if r.program.barrier then
        if front && s.allLanesIdle && s.bindable 0 r.program.nails then .dispatch k 0 else .nothing
      else if s.barrierHeld then s.examine false rest
      else
        match s.idleLane with
        | none => s.examine false rest
        | some l => if s.bindable l r.program.nails then .dispatch k l else s.examine false rest

/-! ## The acts of a step -/

/-- A nail bound to a lane on a bus (R37). -/
def State.bindNail (s : State) (l : LaneNo) (e : Role × NailNo) : State :=
  s.setNail e.2 { s.nailAt e.2 with bindings := (s.nailAt e.2).bindings.set l.val (some e.1) l.isLt }

/-- The nails of a list bound to a lane, each on the bus of its role (R37). -/
def State.bindNails (s : State) (l : LaneNo) (entries : List (Role × NailNo)) : State :=
  entries.foldl (fun t e => t.bindNail l e) s

/-- A lane taking a step: CLOSING, its first CLOSE requested (R103, R112). -/
def Lane.taking (k : Slot) (base : Nat) : Lane :=
  { Lane.blank with phase := .closing, heldSlot := some k, rangeInUse := base, linkRequest := .waiting }

/-- A dispatch, as one event (R103): bindings, the record HELD and run-marked, the dispatched count, and the lane. -/
def State.dispatch (s : State) (k : Slot) (l : LaneNo) : State :=
  match s.recordAt k with
  | none => s
  | some r =>
    let bound := s.bindNails l r.program.nails.entries
    let held := bound.setSlot k { runMark := true, record := some { r with status := .held false none false } }
    let counted := held.setSummary { held.run.summary with dispatched := held.run.summary.dispatched + 1 }
    (counted.setLane l (Lane.taking k r.program.timing.baseRange.val)).arbitrate

/-- A skip verdict, as one event: the verdict written, and the run end tested (R97, R152). -/
def State.skip (s : State) (k : Slot) (v : Verdict) : State :=
  (s.recordVerdict k (VerdictWrite.bare v none)).testRunEnd

/-- A step of the examination in a RUNNING run (R93). -/
def State.examinationStep (s : State) : State :=
  match s.examine true s.window with
  | .skip k v => s.skip k v
  | .dispatch k l => s.dispatch k l
  | .nothing => { s with exam := .waiting }

/-- EXAMINATION_STEP (R93): a WAITING Dispatcher makes no step (log 3), and a step that finds the run not RUNNING ends the
examination (R94). -/
def execExaminationStep (s : State) : Host.Outcome State Fault Refusal :=
  match s.exam with
  | .waiting => .next s
  | .examining => if s.run.state = .running then .next s.examinationStep else .next { s with exam := .waiting }

end Sys2Proof.Machine
end

