-- ==== Sys2Proof/Machine/LaneEvents.lean ====
section
/-! DEFINITION. The events of the lanes and their converters: SETTLE_EXPIRY, CONVERTER_TIMEOUT, RELEASE_WAIT_EXPIRY, RESULT
and DAMAGED_RESULT_FRAME. The expiry of a timer that does not run is no event (R50, log 3). -/

namespace Sys2Proof.Machine

/-- The aperture of the step a lane holds (R110). -/
def State.heldAperture (s : State) (l : LaneNo) : BitVec 16 :=
  ((s.heldBy l).map (fun x => x.2.program.timing.aperture)).getD 0

/-- SETTLE_EXPIRY (R115): START is sent. -/
def execSettleExpiry (l : LaneNo) (s : State) : Host.Outcome State Fault Refusal :=
  match (s.laneAt l).timer with
  | some (.settle _) => .next (s.sendStart l (s.heldAperture l))
  | _ => .next s

/-- CONVERTER_TIMEOUT (R120, R151): CONVERTER_FAULT with the range of the START that failed. -/
def execConverterTimeout (l : LaneNo) (s : State) : Host.Outcome State Fault Refusal :=
  match (s.laneAt l).timer with
  | some (.converterTimeout _) =>
    .next (((s.clearOutstanding l).enterReleasing l
      (VerdictWrite.bare .converterFault (some (s.laneAt l).rangeInUse))).arbitrate)
  | _ => .next s

/-- RELEASE_WAIT_EXPIRY (R123). -/
def execReleaseWaitExpiry (l : LaneNo) (s : State) : Host.Outcome State Fault Refusal :=
  match (s.laneAt l).timer with
  | some (.releaseWait _) => .next (s.endRelease l)
  | _ => .next s

/-- A retry, in the event of the RESULT that causes it (R119). -/
def State.retryLane (s : State) (l : LaneNo) (r : StepRecord) : State :=
  let lane := s.laneAt l
  let raised := (s.setLane l { lane with
    rangeInUse := lane.rangeInUse + 1, retriesUsed := lane.retriesUsed + 1, timer := none }).setSummary
      { s.run.summary with retries := s.run.summary.retries + 1 }
  raised.startSettle l r.program.timing.aperture (retrySettle r.program.timing (lane.rangeInUse + 1) s.tick)

/-- A RESULT taken by its MEASURING lane: the timeout is cancelled, the outstanding START cleared, and the reading judged
(R118). -/
def State.takeResult (s : State) (l : LaneNo) (count : BitVec 24) (overrange fault : Bool) : State :=
  let taken := s.clearOutstanding l
  match s.heldBy l with
  | none => taken
  | some (_, r) =>
    match judge s.run.summary.mode s.run.summary.weight.val r
      { count := count, overrange := overrange, fault := fault, rangeUsed := (s.laneAt l).rangeInUse,
        retriesUsed := (s.laneAt l).retriesUsed } with
    | .retry => taken.retryLane l r
    | .verdict w => (taken.enterReleasing l w).arbitrate

/-- RESULT (R117): passed to its lane if the lane is MEASURING and the frame answers the outstanding START, and discarded
with LATE_RESULT otherwise. -/
def execResult (l : LaneNo) (startNumber : Byte) (count : BitVec 24) (overrange fault : Bool) (s : State) :
    Host.Outcome State Fault Refusal :=
  if (s.laneAt l).phase = .measuring ∧ (s.portAt l).outstanding = some startNumber then
    .next (s.takeResult l count overrange fault)
  else .next (s.latch .lateResult)

/-- DAMAGED_RESULT_FRAME (R117): discarded without a latch. -/
def execDamagedResultFrame (_l : LaneNo) (s : State) : Host.Outcome State Fault Refusal := .next s

end Sys2Proof.Machine
end

