-- ==== Sys2Proof/Machine/LinkEvents.lean ====
section
/-! DEFINITION. The events of the Matrix Link (R161 to R166): ACKNOWLEDGEMENT, DESCRIPTOR, PARITY, STRAY_ANSWER,
ACK_TIMEOUT and CENSUS_TIMEOUT. An answer the link cannot use is discarded (R163). Whether an answer is one to the command in
flight is decided by its card and its kind alone: a late answer to a command that a soft reset dropped (R168) or whose timer
expired (R161, R165) is taken as the answer to a new command in flight to the same card that its kind answers (DESIGN CHOICE,
log 23). -/

namespace Sys2Proof.Machine

/-- The census engine receives the acknowledgement of its OPEN-ALL: the card is ONLINE, which is a dispatch opportunity, and
the engine goes on (R166, R155). -/
def State.censusOpened (s : State) (c : CardNo) : State :=
  ((s.setCard c { s.cardAt c with state := .online }).reportOpportunity).censusNext

/-- An acknowledgement OK from a card (R161): it completes a CLOSE, OPEN or OPEN-ALL in flight to that card, and the link is
free. One that is late for an earlier command to the card is not told apart (DESIGN CHOICE, log 23). -/
def State.acknowledged (s : State) (c : CardNo) : State :=
  match s.link.inFlight with
  | none => s
  | some f =>
    if f.command.isIdentify = false ∧ f.command.card = c then
      let freed := s.freeLink
      (match laneOfRank f.requester with
        | some l => freed.laneCommandOk l
        | none => freed.censusOpened c).arbitrate
    else s

/-- A valid descriptor's fields as stored: a time of 0 is stored as 1 (R156). -/
def storedDescriptor (cardType operate release : Byte) : Descriptor :=
  { cardType := cardType
    operate := if operate = 0 then 1 else operate
    release := if release = 0 then 1 else release }

/-- A descriptor is valid when its four bytes sum to 0 modulo 256 (R156). -/
def validDescriptor (cardType operate release check : Byte) : Bool := decide (cardType + operate + release + check = 0)

/-- A descriptor from a card (R165): it completes an IDENTIFY in flight to that card; a valid one is stored and OPEN-ALL
placed, one that fails its check makes the card OFFLINE. A late descriptor to an earlier IDENTIFY of the same card, dropped or
timed out, is not told apart: R168 has it discarded by R163, whose four cases do not cover it, and the model takes it as the
answer to the new IDENTIFY (DESIGN CHOICE, log 23). -/
def State.described (s : State) (c : CardNo) (cardType operate release check : Byte) : State :=
  match s.link.inFlight with
  | none => s
  | some f =>
    if f.command.isIdentify = true ∧ f.command.card = c then
      let freed := s.freeLink
      (if validDescriptor cardType operate release check then
        { freed.setCard c { freed.cardAt c with descriptor := some (storedDescriptor cardType operate release) } with
          census := freed.census.map (fun x => { x with stage := .openAll, request := .waiting }) }
      else
        ((freed.setCard c { freed.cardAt c with checksumBad := true }).cardOffline c).censusNext).arbitrate
    else s

/-- A PARITY answer from the addressed card (R161): PARITY_SEEN is set; the first resends the command under the same grant
with its timer afresh, the second fails it. A late PARITY to an earlier command to the same card, dropped or timed out, is not
told apart: the model takes it as an answer to the command in flight (DESIGN CHOICE, log 23). -/
def State.parityAnswered (s : State) (c : CardNo) : State :=
  match s.link.inFlight with
  | none => s
  | some f =>
    if f.command.card = c then
      let seen := s.setCard c { s.cardAt c with paritySeen := true }
      if f.resent then seen.failInFlight f false
      else
        { seen with
          link := { seen.link with
            inFlight := some { f with resent := true, timer := s.commandTicks f.command }
            sentCommand := some f.command } }
    else s

/-- An answer as it arrives on MLRX (R161, R163). -/
def State.takeAnswerOnLink (s : State) : LinkAnswer → State
  | .damaged => s
  | .acknowledgement c => s.acknowledged c
  | .descriptor c cardType operate release check => s.described c cardType operate release check
  | .parity c => s.parityAnswered c

/-- ACKNOWLEDGEMENT (R161). -/
def execAcknowledgement (c : CardNo) (s : State) : Host.Outcome State Fault Refusal := .next (s.acknowledged c)

/-- DESCRIPTOR (R165). -/
def execDescriptor (c : CardNo) (cardType operate release check : Byte) (s : State) : Host.Outcome State Fault Refusal :=
  .next (s.described c cardType operate release check)

/-- PARITY (R161). -/
def execParity (c : CardNo) (s : State) : Host.Outcome State Fault Refusal := .next (s.parityAnswered c)

/-- STRAY_ANSWER (R163): an answer that the link can use after all is taken as what it is (log 1). -/
def execStrayAnswer (a : LinkAnswer) (s : State) : Host.Outcome State Fault Refusal := .next (s.takeAnswerOnLink a)

/-- ACK_TIMEOUT (R162): the acknowledgement timer runs while a CLOSE, OPEN or OPEN-ALL is in flight; otherwise nothing
happens (log 3). -/
def execAckTimeout (s : State) : Host.Outcome State Fault Refusal :=
  match s.link.inFlight with
  | none => .next s
  | some f => if f.command.isIdentify then .next s else .next (s.failInFlight f true)

/-- CENSUS_TIMEOUT (R165): the census timer runs while an IDENTIFY is in flight; its card becomes ABSENT and the engine goes
on. Otherwise nothing happens (log 3). -/
def execCensusTimeout (s : State) : Host.Outcome State Fault Refusal :=
  match s.link.inFlight with
  | none => .next s
  | some f =>
    if f.command.isIdentify then
      let c := f.command.card
      .next (((s.freeLink.setCard c { s.cardAt c with state := .absent }).censusNext).arbitrate)
    else .next s

end Sys2Proof.Machine
end

