-- ==== Sys2Proof/Machine/PortOps.lean ====
section
/-! DEFINITION. The shared operations of the Request Port (spec/09_the_request_port.md, R171 to R178): transfers, taking a
request frame, placing a reply, and collections. -/

namespace Sys2Proof.Machine

/-- What an owner answers to a request (R175, R178): a status with a reply body, or a walk that replies at its end. -/
inductive Answer where
  | reply (status : Status) (body : List Byte)
  | walking (walk : Walk)
  deriving DecidableEq, Repr

/-- A refusal: it carries no body (R175). -/
def refuse (st : Status) : Answer := .reply st []

/-- The reply a waiting port shifts out; nothing while no reply waits (R172, R176). -/
def PortState.shiftOut : PortState → List Byte
  | .replying r => r.frame
  | _ => []

/-- The transfer that ends now: the one in progress, or, when its beginning was not given as a command of its own, one that
began in the port state as it stands (log 2). -/
def State.endingTransfer (s : State) : Transfer :=
  s.transfer.getD { startedIn := s.port.phase, shiftOut := s.port.shiftOut }

/-- What the port shifts out in a number of bytes: the bytes it has, then zeros (R172, R176). -/
def Transfer.shifted (t : Transfer) (count : Nat) : List Byte :=
  t.shiftOut.take count ++ List.replicate (count - t.shiftOut.length) 0

/-- PSEL has returned high after a number of whole bytes: the transfer is over, and those bytes have stood on PSDO. -/
def State.endTransfer (s : State) (count : Nat) : State :=
  { s with transfer := none, shiftedOut := s.endingTransfer.shifted count }

/-- A reply placed in the reply buffer: the port is REPLYING (R175). -/
def State.placeReply (s : State) (r : Reply) : State := { s with port := .replying r }

/-- An owner's answer taken by the port: a reply is placed, a walk keeps the port HOLDING (R171, R178). -/
def State.takeAnswer (s : State) (q : Request) : Answer → State
  | .reply st body => s.placeReply { code := q.code, tag := q.tag, status := st, body := body }
  | .walking w => { s with port := .holding q w }

/-- A request handed to its owner, whose answer the port takes (R175). -/
def handOver (owner : List Byte → State → State × Answer) (q : Request) (s : State) : State :=
  (owner q.body s).1.takeAnswer q (owner q.body s).2

/-- A request frame of a row ends: discarded whole with REQUEST_OVERRUN when the port was not EMPTY at its start (R172,
R174); refused BAD_LENGTH when its declared body length is above 60 (R173); otherwise handed to its owner. -/
def takeRequest (owner : List Byte → State → State × Answer) (code : Byte) (f : RequestFrame) (s : State) : State :=
  let ended := s.endTransfer (4 + f.body.length)
  if s.endingTransfer.startedIn ≠ .empty then ended.latch .requestOverrun
  else if 60 < f.body.length then ended.placeReply { code := code, tag := f.tag, status := .badLength, body := [] }
  else handOver owner { code := code, tag := f.tag, body := f.body } ended

/-- A collection that ends after a number of whole bytes (R176, R177); with none it is no collection (R172). A collection
that began while REPLYING and is long enough empties the reply buffer. -/
def collect (count : Nat) (s : State) : State :=
  if count = 0 then { s with transfer := none }
  else
    let ended := s.endTransfer count
    match s.endingTransfer.startedIn, s.port with
    | .replying, .replying r => if 4 + r.body.length ≤ count then { ended with port := .empty } else ended
    | _, _ => ended

/-- The checks of R173 on the bytes of a frame, with whether its code is in the catalogue. -/
def frameChecks (bytes : List Byte) (inCatalogue : Bool) : List (Bool × Status) :=
  [ (decide (bytes.length < 4), .badLength),
    (decide (60 < (byteAt bytes 2).toNat), .badLength),
    (decide (bytes.length ≠ 4 + (byteAt bytes 2).toNat), .badLength),
    (!inCatalogue, .badRequest) ]

/-- The condition checks of requests that are refused while a run or a census is in progress (section 9.4), in that order. -/
def State.busyChecks (s : State) (whileCensus : Status) : List (Bool × Status) :=
  [(s.run.state.active, .busy), (s.census.isSome, whileCensus)]

/-- The check of a request with a body of fixed length (R175). -/
def lengthCheck (body : List Byte) (n : Nat) : Bool × Status := (decide (body.length ≠ n), .badLength)

end Sys2Proof.Machine
end

