-- ==== Sys2Proof/Machine/CardRequests.lean ====
section
/-! DEFINITION. The card requests (R164, R167): CARD_READ and CARD_CENSUS. -/

namespace Sys2Proof.Machine

/-- The card a whole byte names, if it is 0 to 15. -/
def namedCard (b : Byte) : Option CardNo := if h : b.toNat < 16 then some ⟨b.toNat, h⟩ else none

/-- CARD READ at its owner (R167): the reply shows the flags as they stood, and the read clears them. -/
def cardReadOwner (body : List Byte) (s : State) : State × Answer :=
  if body.length ≠ 1 then (s, refuse .badLength)
  else
    match namedCard (byteAt body 0) with
    | none => (s, refuse .badRequest)
    | some c => (s.setCard c (s.cardAt c).clearFlags, .reply .ok (cardBody c (s.cardAt c) s.tick))

/-- CARD_READ (R167). -/
def execCardRead (f : RequestFrame) (s : State) : Host.Outcome State Fault Refusal :=
  .next (takeRequest cardReadOwner 0x30 f s)

/-- The cards a card field covers in a census, as the lowest and the others in ascending order: one card, or ALL for 0xFF
(R164). -/
def coveredCards (b : Byte) : Option (CardNo × List CardNo) :=
  if b = 0xFF then some (0, [1, 2, 3, 4, 5, 6, 7, 8, 9, 10, 11, 12, 13, 14, 15])
  else (namedCard b).map (fun c => (c, []))

/-- CARD CENSUS at its owner (R164). -/
def cardCensusOwner (body : List Byte) (s : State) : State × Answer :=
  let covered := coveredCards (byteAt body 0)
  match firstFailing ([lengthCheck body 1, (covered.isNone, .badRequest)] ++ s.busyChecks .busy) with
  | some st => (s, refuse st)
  | none =>
    match covered with
    | none => (s, refuse .badRequest)
    | some (first, others) => (s.startCensus first others, .reply .started [byteAt body 0])

/-- CARD_CENSUS (R164). -/
def execCardCensus (f : RequestFrame) (s : State) : Host.Outcome State Fault Refusal :=
  .next (takeRequest cardCensusOwner 0x31 f s)

end Sys2Proof.Machine
end

