-- ==== Sys2Proof/Machine/StepRequests.lean ====
section
/-! DEFINITION. The step requests (spec/01_step_records.md, sections 1.2 to 1.8): STEP_WRITE, STEP_EDIT, STEP_READ,
STEP_PARK, STEP_UNPARK, STEP_RETIRE, STEP_SCAN and STEP_SCAN_VISIT. -/

namespace Sys2Proof.Machine

/-! ## Named slots (R10) -/

/-- The slot a two-byte field names, if it is 0 to 2047. -/
def slotOf (w : BitVec 16) : Option Slot := if h : w.toNat < 2048 then some ⟨w.toNat, h⟩ else none

/-- The slot and record a request names, absent for a number above 2047 and for a FREE slot. -/
def State.namedRecord (s : State) (w : BitVec 16) : Option (Slot × StepRecord) :=
  match slotOf w with
  | none => none
  | some k => (s.recordAt k).map (fun r => (k, r))

/-- A HELD record with retire pending. -/
def StepStatus.retiring : StepStatus → Bool
  | .held _ _ retire => retire
  | _ => false

/-- The slot and record named by a request that a HELD record with retire pending refuses too (R10, R22). -/
def State.openRecord (s : State) (w : BitVec 16) : Option (Slot × StepRecord) :=
  match s.namedRecord w with
  | none => none
  | some (k, r) => if r.status.retiring then none else some (k, r)

/-- The step state reply of a slot as it stands (R10). -/
def State.stepStateReply (s : State) (k : Slot) : List Byte := stepStateBody k (s.slotAt k)

/-! ## STEP WRITE -/

/-- Check 4 of R11: SRC_HI, or SNS_HI if present, is marked COMMON. -/
def State.placesCommonHigh (s : State) (l : NailList) : Bool :=
  (s.nailAt l.srcHi).common || (match l.snsHi with
    | none => false
    | some n => (s.nailAt n).common)

/-- The checks of R11 in their order. -/
def State.writeChecks (s : State) (body : List Byte) (w : WriteBody) : List (Bool × Status) :=
  [(decide (body.length < 3) || decide (4 < w.guardCount) || decide (body.length ≠ w.impliedLength), .badLength)]
    ++ nailNumberChecks w.names
    ++ [(s.placesCommonHigh w.names.toNailList, .badRole), (decide (6 < w.rangeByte.toNat), .badLimits)]
    ++ limitChecks w.kind w.limits
    ++ [(decide (w.timing.aperture = 0), .badLimits)]

/-- The lowest-numbered FREE slot from a slot number on, looking at `fuel` slots (R12). -/
def State.firstFree (s : State) : Nat → Nat → Option Slot
  | 0, _ => none
  | fuel + 1, k =>
    match slotOf (BitVec.ofNat 16 k) with
    | none => none
    | some slot => if (s.recordAt slot).isNone then some slot else s.firstFree fuel (k + 1)

/-- The choice of a slot (R12): 0xFFFF is ANY. -/
def State.chooseSlot (s : State) (w : BitVec 16) : Status ⊕ Slot :=
  if w = 0xFFFF then
    match s.firstFree 2048 0 with
    | none => .inl .tableFull
    | some k => .inr k
  else
    match slotOf w with
    | none => .inl .noSuchStep
    | some k => if (s.recordAt k).isSome then .inl .slotInUse else .inr k

/-- An accepted STEP WRITE (R13): the record stored, READY or PARKED with NAIL, and its nails' counts raised. -/
def State.storeStep (s : State) (k : Slot) (p : StepProgram) : State :=
  let status := StepStatus.ofReasons { requested := false, nail := s.anyRetired p.nails }
  let stored := (s.raiseRefs p.nails.toList).setRecord k { program := p, stats := StepStats.fresh, status := status }
  if status = .ready then stored.reportOpportunity else stored

/-- STEP WRITE at its owner (R11 to R13). -/
def stepWriteOwner (body : List Byte) (s : State) : State × Answer :=
  let w := readWrite body
  match firstFailing (s.writeChecks body w) with
  | some st => (s, refuse st)
  | none =>
    match s.chooseSlot w.slot with
    | .inl st => (s, refuse st)
    | .inr k =>
      let stored := s.storeStep k w.program
      (stored, .reply .ok (stored.stepStateReply k))

/-- STEP_WRITE (R11 to R13). -/
def execStepWrite (f : RequestFrame) (s : State) : Host.Outcome State Fault Refusal :=
  .next (takeRequest stepWriteOwner 0x10 f s)

/-! ## STEP EDIT -/

/-- The checks of R11 restricted to the groups present, in their order (R15). -/
def State.editChecks (s : State) (body : List Byte) (e : EditBody) (k : StepKind) : List (Bool × Status) :=
  [((e.hasNails && decide (4 < e.guardCount)) || decide (body.length ≠ e.impliedLength), .badLength)]
    ++ (if e.hasNails then nailNumberChecks e.names ++ [(s.placesCommonHigh e.names.toNailList, .badRole)] else [])
    ++ (if e.hasTiming then [(decide (6 < e.rangeByte.toNat), .badLimits)] else [])
    ++ (if e.hasLimits then limitChecks k e.limits else [])
    ++ (if e.hasTiming then [(decide (e.timing.aperture = 0), .badLimits)] else [])

/-- An accepted edit of a READY or PARKED record, taken at once (R16): an edit of a READY record, or one that makes a record
READY, is a dispatch opportunity, and one that parks the last candidate ends the run (R76). The spec gives no order between the
report and the test of the run's end; the model reports first, so that an edit which parks the last candidate leaves the
Dispatcher EXAMINING in a DONE run until its next examination step (DESIGN CHOICE, log 22). -/
def State.editNow (s : State) (k : Slot) (r : StepRecord) (e : StepEdit) : State :=
  let applied := s.applyEdit k r e
  let opened :=
    if r.status = .ready ∨ (applied.recordAt k).map StepRecord.status = some .ready then applied.reportOpportunity
    else applied
  opened.testRunEnd

/-- STEP EDIT at its owner (R14 to R17). -/
def stepEditOwner (body : List Byte) (s : State) : State × Answer :=
  let b := readEdit body
  if body.length < 3 then (s, refuse .badLength)
  else
    match s.openRecord b.slot with
    | none => (s, refuse .noSuchStep)
    | some (k, r) =>
      match firstFailing (s.editChecks body b r.program.kind) with
      | some st => (s, refuse st)
      | none =>
        match r.status with
        | .held pendingPark _ retire =>
          let stored := s.setRecord k { r with status := .held pendingPark (some b.edit) retire }
          (stored, .reply .deferred (stored.stepStateReply k))
        | .ready =>
          let edited := s.editNow k r b.edit
          (edited, .reply .ok (edited.stepStateReply k))
        | .parked _ =>
          let edited := s.editNow k r b.edit
          (edited, .reply .ok (edited.stepStateReply k))

/-- STEP_EDIT (R14 to R17). -/
def execStepEdit (f : RequestFrame) (s : State) : Host.Outcome State Fault Refusal :=
  .next (takeRequest stepEditOwner 0x11 f s)

/-! ## STEP READ, PARK, UNPARK, RETIRE -/

/-- STEP READ at its owner (R18). -/
def stepReadOwner (body : List Byte) (s : State) : State × Answer :=
  if body.length ≠ 2 then (s, refuse .badLength)
  else
    match s.namedRecord (word16At body 0) with
    | none => (s, refuse .noSuchStep)
    | some (k, r) => (s, .reply .ok (stepRecordBody k (s.slotAt k) r))

/-- STEP_READ (R18). -/
def execStepRead (f : RequestFrame) (s : State) : Host.Outcome State Fault Refusal :=
  .next (takeRequest stepReadOwner 0x12 f s)

/-- STEP PARK at its owner (R19). -/
def stepParkOwner (body : List Byte) (s : State) : State × Answer :=
  if body.length ≠ 2 then (s, refuse .badLength)
  else
    match s.openRecord (word16At body 0) with
    | none => (s, refuse .noSuchStep)
    | some (k, r) =>
      match r.status with
      | .held _ deferred retire =>
        let parked := s.setRecord k { r with status := .held true deferred retire }
        (parked, .reply .deferred (parked.stepStateReply k))
      | .ready =>
        let parked := (s.setRecord k { r with status := .parked { requested := true, nail := false } }).testRunEnd
        (parked, .reply .ok (parked.stepStateReply k))
      | .parked reasons =>
        let parked := s.setRecord k { r with status := .parked { reasons with requested := true } }
        (parked, .reply .ok (parked.stepStateReply k))

/-- STEP_PARK (R19). -/
def execStepPark (f : RequestFrame) (s : State) : Host.Outcome State Fault Refusal :=
  .next (takeRequest stepParkOwner 0x13 f s)

/-- STEP UNPARK at its owner (R20). -/
def stepUnparkOwner (body : List Byte) (s : State) : State × Answer :=
  if body.length ≠ 2 then (s, refuse .badLength)
  else
    match s.openRecord (word16At body 0) with
    | none => (s, refuse .noSuchStep)
    | some (k, r) =>
      match r.status with
      | .held _ deferred retire =>
        let unparked := s.setRecord k { r with status := .held false deferred retire }
        (unparked, .reply .ok (unparked.stepStateReply k))
      | .ready => (s, .reply .ok (s.stepStateReply k))
      | .parked reasons =>
        if reasons.requested then
          let status := StepStatus.ofReasons { reasons with requested := false }
          let unparked := s.setRecord k { r with status := status }
          let opened := if status = .ready then unparked.reportOpportunity else unparked
          (opened, .reply .ok (opened.stepStateReply k))
        else (s, refuse .nailRetired)

/-- STEP_UNPARK (R20). -/
def execStepUnpark (f : RequestFrame) (s : State) : Host.Outcome State Fault Refusal :=
  .next (takeRequest stepUnparkOwner 0x14 f s)

/-- STEP RETIRE at its owner (R21, R22). -/
def stepRetireOwner (body : List Byte) (s : State) : State × Answer :=
  if body.length ≠ 2 then (s, refuse .badLength)
  else
    match s.openRecord (word16At body 0) with
    | none => (s, refuse .noSuchStep)
    | some (k, r) =>
      match r.status with
      | .held _ _ _ =>
        let retiring := s.setRecord k { r with status := .held false none true }
        (retiring, .reply .deferred (retiring.stepStateReply k))
      | .ready =>
        let freed := (s.freeSlot k r).testRunEnd
        (freed, .reply .ok (freed.stepStateReply k))
      | .parked _ =>
        let freed := (s.freeSlot k r).testRunEnd
        (freed, .reply .ok (freed.stepStateReply k))

/-- STEP_RETIRE (R21, R22). -/
def execStepRetire (f : RequestFrame) (s : State) : Host.Outcome State Fault Refusal :=
  .next (takeRequest stepRetireOwner 0x15 f s)

/-! ## STEP SCAN -/

/-- STEP SCAN at its owner (R26): a start slot above 2047 is refused, otherwise the walk begins. -/
def stepScanOwner (body : List Byte) (s : State) : State × Answer :=
  if body.length ≠ 6 then (s, refuse .badLength)
  else
    match slotOf (word16At body 0) with
    | none => (s, refuse .noSuchStep)
    | some start =>
      (s, .walking (.scan
        { verdicts := (word16At body 2).extractLsb' 0 12, states := (byteAt body 4).extractLsb' 0 4,
          currentRun := bitAt body 5 0 } start []))

/-- STEP_SCAN (R26). -/
def execStepScan (f : RequestFrame) (s : State) : Host.Outcome State Fault Refusal :=
  .next (takeRequest stepScanOwner 0x16 f s)

/-- A slot matches a filter when it meets every part the filter carries (R26). -/
def ScanFilter.selects (f : ScanFilter) (runNumber : BitVec 16) (ss : StepSlot) : Bool :=
  (match ss.record with
    | none => decide (f.verdicts = 0)
    | some r => decide (f.verdicts = 0) || f.verdicts.getLsbD (verdictCode r.stats.lastVerdict))
  && (if f.states = 0 then ss.record.isSome else f.states.getLsbD ss.stateCode)
  && (!f.currentRun || (match ss.record with
    | none => false
    | some r => decide (r.stats.lastRun = some runNumber)))

/-- The slot after a slot, absent after slot 2047. -/
def slotAfter (k : Slot) : Option Slot := if h : k.val + 1 < 2048 then some ⟨k.val + 1, h⟩ else none

/-- A walk's reply placed with the code and tag of its request (R175). -/
def State.endWalk (s : State) (q : Request) (body : List Byte) : State :=
  s.placeReply { code := q.code, tag := q.tag, status := .ok, body := body }

/-- One slot of a STEP SCAN walk: it is tested as it stands; at 32 matches, or at slot 2047, the reply is placed, its next
start the slot after the 32nd match (R27). -/
def State.scanVisit (s : State) (q : Request) (f : ScanFilter) (k : Slot) (found : List Slot) : State :=
  let found' := if f.selects s.run.number (s.slotAt k) then found ++ [k] else found
  if 32 ≤ found'.length then s.endWalk q (scanBody found' (slotAfter k))
  else
    match slotAfter k with
    | none => s.endWalk q (scanBody found' none)
    | some next => { s with port := .holding q (.scan f next found') }

/-- STEP_SCAN_VISIT (R27): with no STEP SCAN walk in progress nothing happens (log 3). -/
def execStepScanVisit (s : State) : Host.Outcome State Fault Refusal :=
  match s.port with
  | .holding q (.scan f k found) => .next (s.scanVisit q f k found)
  | .holding _ (.lookup _ _ _) => .next s
  | .empty => .next s
  | .replying _ => .next s

end Sys2Proof.Machine
end

