-- ==== Sys2Proof/Machine/NailRequests.lean ====
section
/-! DEFINITION. The nail requests (spec/02_the_nail_map.md, sections 2.7 to 2.9): NAIL_READ, NAIL_LOOKUP,
NAIL_LOOKUP_VISIT, NAIL_RETIRE, NAIL_RESTORE, NAIL_COMMON_SET and NAIL_COMMON_CLEAR. -/

namespace Sys2Proof.Machine

/-- The nail a two-byte field names, if it is 0 to 4095 (R42). -/
def namedNail (w : BitVec 16) : Option NailNo := if h : w.toNat < 4096 then some ⟨w.toNat, h⟩ else none

/-- The nail entry as NAIL READ returns it (R42, R43). -/
def State.nailReply (s : State) (n : NailNo) : List Byte := nailEntryBody n (s.nailAt n)

/-- A nail is bound: some lane holds it (R35). -/
def NailEntry.isBound (e : NailEntry) : Bool := e.bindings.toList.any Option.isSome

/-! ## NAIL READ and NAIL LOOKUP -/

/-- NAIL READ at its owner (R43). -/
def nailReadOwner (body : List Byte) (s : State) : State × Answer :=
  if body.length ≠ 2 then (s, refuse .badLength)
  else
    match namedNail (word16At body 0) with
    | none => (s, refuse .badNail)
    | some n => (s, .reply .ok (s.nailReply n))

/-- NAIL_READ (R43). -/
def execNailRead (f : RequestFrame) (s : State) : Host.Outcome State Fault Refusal :=
  .next (takeRequest nailReadOwner 0x20 f s)

/-- NAIL LOOKUP at its owner (R44): the nail is checked, then the start slot, then the walk begins. -/
def nailLookupOwner (body : List Byte) (s : State) : State × Answer :=
  if body.length ≠ 4 then (s, refuse .badLength)
  else
    match namedNail (word16At body 0) with
    | none => (s, refuse .badNail)
    | some n =>
      match slotOf (word16At body 2) with
      | none => (s, refuse .noSuchStep)
      | some start => (s, .walking (.lookup n start []))

/-- NAIL_LOOKUP (R44). -/
def execNailLookup (f : RequestFrame) (s : State) : Host.Outcome State Fault Refusal :=
  .next (takeRequest nailLookupOwner 0x21 f s)

/-- The role in which the record of a slot names a nail, if it does (R44). -/
def StepSlot.roleOf (ss : StepSlot) (n : NailNo) : Option Role :=
  match ss.record with
  | none => none
  | some r => r.program.nails.roleOf n

/-- One slot of a NAIL LOOKUP walk (R44); the reference count is the one at the reply. -/
def State.lookupVisit (s : State) (q : Request) (n : NailNo) (k : Slot) (found : List (Slot × Role)) : State :=
  let found' := match (s.slotAt k).roleOf n with
    | none => found
    | some role => found ++ [(k, role)]
  if 32 ≤ found'.length then s.endWalk q (lookupBody (s.nailAt n).refCount found' (slotAfter k))
  else
    match slotAfter k with
    | none => s.endWalk q (lookupBody (s.nailAt n).refCount found' none)
    | some next => { s with port := .holding q (.lookup n next found') }

/-- NAIL_LOOKUP_VISIT (R44): with no NAIL LOOKUP walk in progress nothing happens (log 3). -/
def execNailLookupVisit (s : State) : Host.Outcome State Fault Refusal :=
  match s.port with
  | .holding q (.lookup n k found) => .next (s.lookupVisit q n k found)
  | .holding _ (.scan _ _ _) => .next s
  | .empty => .next s
  | .replying _ => .next s

/-! ## NAIL RETIRE and NAIL RESTORE -/

/-- A record gains the NAIL reason when a nail is retired: it is not HELD, names the nail, and does not carry the reason
(R45). -/
def StepSlot.gainsNail (n : NailNo) (ss : StepSlot) : Bool :=
  match ss.record with
  | none => false
  | some r => !r.status.isHeld && r.program.nails.names n && !r.status.reasons.nail

/-- The slot with the NAIL reason added (R45). -/
def StepSlot.withNailReason (ss : StepSlot) : StepSlot :=
  { ss with
    record := ss.record.map (fun r => { r with status := StepStatus.ofReasons { r.status.reasons with nail := true } }) }

/-- The retirement of a nail (R45): the nail RETIRED, the NAIL reason added, and the run end tested. -/
def State.retireNail (s : State) (n : NailNo) : State :=
  (({ s with
      steps := Table.mapAll StepSlot.blank (fun ss => if ss.gainsNail n then ss.withNailReason else ss) s.steps }).setNail n
        { s.nailAt n with state := .retired }).testRunEnd

/-- NAIL RETIRE at its owner (R45). -/
def nailRetireOwner (body : List Byte) (s : State) : State × Answer :=
  if body.length ≠ 2 then (s, refuse .badLength)
  else
    match namedNail (word16At body 0) with
    | none => (s, refuse .badNail)
    | some n =>
      if (s.nailAt n).state = .retired then (s, .reply .ok (s.nailReply n ++ bytesOf16 0))
      else
        let retired := s.retireNail n
        (retired, .reply .ok (retired.nailReply n
          ++ bytesOf16 (s.steps.filter (fun e => e.2.gainsNail n)).length))

/-- NAIL_RETIRE (R45). -/
def execNailRetire (f : RequestFrame) (s : State) : Host.Outcome State Fault Refusal :=
  .next (takeRequest nailRetireOwner 0x22 f s)

/-- A record loses the NAIL reason when a nail is restored: it is not HELD, carries the reason, names this nail, and its
list now names no RETIRED nail (R46). -/
def State.losesNail (restored : State) (n : NailNo) (ss : StepSlot) : Bool :=
  match ss.record with
  | none => false
  | some r =>
    !r.status.isHeld && r.status.reasons.nail && r.program.nails.names n && !restored.anyRetired r.program.nails

/-- The slot with the NAIL reason removed (R46). -/
def StepSlot.withoutNailReason (ss : StepSlot) : StepSlot :=
  { ss with
    record := ss.record.map (fun r => { r with status := StepStatus.ofReasons { r.status.reasons with nail := false } }) }

/-- The nail in SERVICE with its contact fails 0 (R46). -/
def State.serviceNail (s : State) (n : NailNo) : State :=
  s.setNail n { s.nailAt n with state := .service, contactFails := 0 }

/-- The restoration of a nail (R46): for a RETIRED nail the records it alone kept out lose NAIL; the move to SERVICE is a
dispatch opportunity. -/
def State.restoreNail (s : State) (n : NailNo) : State :=
  let served := s.serviceNail n
  let unparked :=
    if (s.nailAt n).state = .retired then
      { served with
        steps := Table.mapAll StepSlot.blank
          (fun ss => if served.losesNail n ss then ss.withoutNailReason else ss) s.steps }
    else served
  unparked.reportOpportunity

/-- The number of records that lose the NAIL reason at a restoration; a SUSPECT nail parks nothing (R46). -/
def State.lostCount (s : State) (n : NailNo) : Nat :=
  if (s.nailAt n).state = .retired then (s.steps.filter (fun e => (s.serviceNail n).losesNail n e.2)).length else 0

/-- NAIL RESTORE at its owner (R46). -/
def nailRestoreOwner (body : List Byte) (s : State) : State × Answer :=
  if body.length ≠ 2 then (s, refuse .badLength)
  else
    match namedNail (word16At body 0) with
    | none => (s, refuse .badNail)
    | some n =>
      if (s.nailAt n).state = .service then (s, .reply .ok (s.nailReply n ++ bytesOf16 0))
      else
        let restored := s.restoreNail n
        (restored, .reply .ok (restored.nailReply n ++ bytesOf16 (s.lostCount n)))

/-- NAIL_RESTORE (R46). -/
def execNailRestore (f : RequestFrame) (s : State) : Host.Outcome State Fault Refusal :=
  .next (takeRequest nailRestoreOwner 0x23 f s)

/-! ## NAIL COMMON -/

/-- A record, or its stored deferred edit, places a nail in SRC_HI or SNS_HI (R47 check 5, R17). -/
def StepSlot.placesHigh (n : NailNo) (ss : StepSlot) : Bool :=
  match ss.record with
  | none => false
  | some r =>
    r.program.nails.namesHigh n
      || (match r.status with
        | .held _ (some e) _ =>
          match e.nails with
          | none => false
          | some l => l.namesHigh n
        | _ => false)

/-- NAIL COMMON with the mark set (R47). -/
def State.setCommon (s : State) (n : NailNo) : State × Answer :=
  let e := s.nailAt n
  if e.common then (s, .reply .ok (s.nailReply n))
  else if e.isBound then (s, refuse .nailInUse)
  else if e.state = .suspect then (s, refuse .nailInUse)
  else if s.steps.any (fun x => x.2.placesHigh n) then (s, refuse .badRole)
  else
    let marked := s.setNail n { e with common := true }
    (marked, .reply .ok (marked.nailReply n))

/-- NAIL COMMON with the mark clear (R48). -/
def State.clearCommon (s : State) (n : NailNo) : State × Answer :=
  let e := s.nailAt n
  if !e.common then (s, .reply .ok (s.nailReply n))
  else if e.isBound then (s, refuse .nailInUse)
  else
    let cleared := s.setNail n { e with common := false }
    (cleared, .reply .ok (cleared.nailReply n))

/-- NAIL COMMON at its owner: the mark wanted is bit 0 of offset 2 (section 10.4). -/
def nailCommonOwner (body : List Byte) (s : State) : State × Answer :=
  if body.length ≠ 3 then (s, refuse .badLength)
  else
    match namedNail (word16At body 0) with
    | none => (s, refuse .badNail)
    | some n => if bitAt body 2 0 then s.setCommon n else s.clearCommon n

/-- NAIL_COMMON_SET (R47). The mark wanted is the frame's own (log 1). -/
def execNailCommonSet (f : RequestFrame) (s : State) : Host.Outcome State Fault Refusal :=
  .next (takeRequest nailCommonOwner 0x24 f s)

/-- NAIL_COMMON_CLEAR (R48). The mark wanted is the frame's own (log 1). -/
def execNailCommonClear (f : RequestFrame) (s : State) : Host.Outcome State Fault Refusal :=
  .next (takeRequest nailCommonOwner 0x24 f s)

end Sys2Proof.Machine
end

