-- ==== Sys2Proof/Machine/PortRequests.lean ====
section
/-! DEFINITION. The requests on settings and conditions (R52, R181 to R184): TIMEBASE_SET, CONFIG_SET, CONFIG_READ, STATUS
and ENABLE_SET. -/

namespace Sys2Proof.Machine

/-- TIMEBASE SET at its owner (R52): the code is the low four bits of its byte, the divisor the low eleven of its two. A
running filter interval keeps its count (R51). -/
def timebaseSetOwner (body : List Byte) (s : State) : State × Answer :=
  match firstFailing ([lengthCheck body 3] ++ s.busyChecks .busy) with
  | some st => (s, refuse st)
  | none =>
    let t : Timebase :=
      { prescale := (byteAt body 0).extractLsb' 0 4, divisor := (word16At body 1).extractLsb' 0 11 }
    ({ s with timebase := t }, .reply .ok (timebaseBody t))

/-- TIMEBASE_SET (R52). -/
def execTimebaseSet (f : RequestFrame) (s : State) : Host.Outcome State Fault Refusal :=
  .next (takeRequest timebaseSetOwner 0x50 f s)

/-- A contact threshold clamped to 1 to 15 (R183). -/
def clampThreshold (b : Byte) : BitVec 4 := BitVec.ofNat 4 (max 1 (min 15 b.toNat))

/-- A setting in ticks: 0 is stored as 1 (R183). -/
def clampTicks (w : BitVec 16) : BitVec 16 := if w = 0 then 1 else w

/-- A filter code above 3 is stored as 3 (R183). -/
def clampFilterCode (b : Byte) : BitVec 2 := BitVec.ofNat 2 (min 3 b.toNat)

/-- The settings a CONFIG SET body stores (R183, section 10.6). -/
def settingsOf (body : List Byte) : Settings :=
  { contactThreshold := clampThreshold (byteAt body 0)
    ackTimeout := clampTicks (word16At body 1)
    converterMargin := clampTicks (word16At body 3)
    filterCode := clampFilterCode (byteAt body 5)
    censusTimeout := clampTicks (word16At body 6) }

/-- CONFIG SET at its owner (R183). -/
def configSetOwner (body : List Byte) (s : State) : State × Answer :=
  match firstFailing ([lengthCheck body 8] ++ s.busyChecks .busy) with
  | some st => (s, refuse st)
  | none => ({ s with settings := settingsOf body }, .reply .ok (settingsBody (settingsOf body)))

/-- CONFIG_SET (R183). -/
def execConfigSet (f : RequestFrame) (s : State) : Host.Outcome State Fault Refusal :=
  .next (takeRequest configSetOwner 0x60 f s)

/-- CONFIG READ at its owner (R184). -/
def configReadOwner (body : List Byte) (s : State) : State × Answer :=
  if body.length ≠ 0 then (s, refuse .badLength)
  else (s, .reply .ok (settingsBody s.settings ++ timebaseBody s.timebase))

/-- CONFIG_READ (R184). -/
def execConfigRead (f : RequestFrame) (s : State) : Host.Outcome State Fault Refusal :=
  .next (takeRequest configReadOwner 0x61 f s)

/-- STATUS at its owner (R181): the reply is formed, then the latches the mask names are cleared. -/
def statusOwner (body : List Byte) (s : State) : State × Answer :=
  if body.length ≠ 1 then (s, refuse .badLength)
  else ({ s with latches := s.latches.without (Conditions.ofByte (byteAt body 0)) }, .reply .ok (statusBody s))

/-- STATUS (R181). -/
def execStatus (f : RequestFrame) (s : State) : Host.Outcome State Fault Refusal :=
  .next (takeRequest statusOwner 0x62 f s)

/-- ENABLE SET at its owner (R182). -/
def enableSetOwner (body : List Byte) (s : State) : State × Answer :=
  if body.length ≠ 1 then (s, refuse .badLength)
  else
    ({ s with enables := Conditions.ofByte (byteAt body 0) },
      .reply .ok [(Conditions.ofByte (byteAt body 0)).toByte, s.latches.toByte])

/-- ENABLE_SET (R182). -/
def execEnableSet (f : RequestFrame) (s : State) : Host.Outcome State Fault Refusal :=
  .next (takeRequest enableSetOwner 0x63 f s)

end Sys2Proof.Machine
end

