-- ==== Sys2Proof/Machine/RunRequests.lean ====
section
/-! DEFINITION. The run requests and the run's own events (spec/04_runs.md): RUN_START, RUN_ABORT_DRAIN, RUN_ABORT_FORCE,
RUN_SUMMARY, FXC_CHANGE, FXC_FILTER_EXPIRY and RUN_ELAPSED_TICK. -/

namespace Sys2Proof.Machine

/-! ## Starting a run -/

/-- The run mark of a slot cleared (R7). -/
def StepSlot.unmarked (ss : StepSlot) : StepSlot := { ss with runMark := false }

/-- The run marks of all slots cleared (R7, R67). -/
def State.clearMarks (s : State) : State := { s with steps := Table.mapAll StepSlot.blank StepSlot.unmarked s.steps }

/-- The run enters RUNNING: the entry is a dispatch opportunity, and the end condition is tested (R74). -/
def State.enterRunning (s : State) : State :=
  (({ s with run := { s.run with state := .running } }).reportOpportunity).testRunEnd

/-- The direction of a RUN START body (R66): bit 0 of offset 1. -/
def directionOf (body : List Byte) : Bool := bitAt body 1 0

/-- The learn weight stored: above 3 it is 3 (R66). -/
def storedWeight (b : Byte) : Fin 4 := if h : b.toNat < 4 then ⟨b.toNat, h⟩ else 3

/-- An accepted RUN START, as one event (R67). -/
def State.startRun (s : State) (mode : RunMode) (reverse : Bool) (weight : Fin 4) : State :=
  let cleared := s.clearMarks
  let armed :=
    { cleared with
      run :=
        { s.run with
          state := .armed
          number := s.run.number + 1
          summary := { RunSummary.cleared with mode := mode, reverse := reverse, weight := weight } } }
  if s.run.fixture = .closed then armed.enterRunning else armed

/-- RUN START at its owner (R66, R67). -/
def runStartOwner (body : List Byte) (s : State) : State × Answer :=
  let mode := RunMode.ofByte (byteAt body 0)
  match firstFailing ([lengthCheck body 3] ++ s.busyChecks .notReady ++ [(mode.isNone, .badRequest)]) with
  | some st => (s, refuse st)
  | none =>
    match mode with
    | none => (s, refuse .badRequest)
    | some m =>
      let started := s.startRun m (directionOf body) (storedWeight (byteAt body 2))
      (started, .reply .ok (bytes16 started.run.number
        ++ [byteOf started.run.state.code, byteOf (storedWeight (byteAt body 2)).val]))

/-- RUN_START (R66, R67). -/
def execRunStart (f : RequestFrame) (s : State) : Host.Outcome State Fault Refusal :=
  .next (takeRequest runStartOwner 0x40 f s)

/-! ## Aborts -/

/-- The abort reason written. -/
def State.setAbortReason (s : State) (r : AbortReason) : State :=
  s.setSummary { s.run.summary with abortReason := some r }

/-- An ARMED run becomes ABORTED at once (R78). -/
def State.abortArmed (s : State) (r : AbortReason) : State := (s.setAbortReason r).closeRun .aborted

/-- A RUNNING run becomes DRAINING, and ABORTED at once when every lane is IDLE (R79, R80, R83). -/
def State.drain (s : State) (r : AbortReason) : State :=
  let draining := s.setAbortReason r
  { draining with run := { draining.run with state := .draining } }

/-- A force: every busy lane is ordered to abandon, and the run's end tested (R80, R83). -/
def State.force (s : State) : State := s.abandonAll.testRunEnd

/-- An accepted RUN ABORT with the drain manner (R78, R79, R81). -/
def State.abortDrain (s : State) : State :=
  match s.run.state with
  | .armed => s.abortArmed .drainRequest
  | .running => (s.drain .drainRequest).testRunEnd
  | _ => s

/-- A force with its reason, by request or by the fixture opening, on a RUNNING or DRAINING run (R80 to R82): a drain in
progress becomes a force, a force in progress is not changed. -/
def State.abortForce (s : State) (r : AbortReason) : State :=
  match s.run.state with
  | .running => (s.drain r).force
  | .draining => if s.run.summary.abortReason = some .drainRequest then (s.setAbortReason r).force else s
  | _ => s

/-- RUN ABORT at its owner: the manner is bit 0 of the body (R78 to R81). -/
def runAbortOwner (body : List Byte) (s : State) : State × Answer :=
  match firstFailing [lengthCheck body 1, (!s.run.state.active, .notActive)] with
  | some st => (s, refuse st)
  | none =>
    let aborted :=
      if bitAt body 0 0 then
        if s.run.state = .armed then s.abortArmed .forceRequest else s.abortForce .forceRequest
      else s.abortDrain
    (aborted, .reply .ok [byteOf aborted.run.state.code, byteOf (abortReasonCode aborted.run.summary.abortReason)])

/-- RUN_ABORT_DRAIN (R78, R79, R81). The manner is the frame's own (log 1). -/
def execRunAbortDrain (f : RequestFrame) (s : State) : Host.Outcome State Fault Refusal :=
  .next (takeRequest runAbortOwner 0x41 f s)

/-- RUN_ABORT_FORCE (R78, R80, R81). The manner is the frame's own (log 1). -/
def execRunAbortForce (f : RequestFrame) (s : State) : Host.Outcome State Fault Refusal :=
  .next (takeRequest runAbortOwner 0x41 f s)

/-- RUN SUMMARY at its owner (R86). -/
def runSummaryOwner (body : List Byte) (s : State) : State × Answer :=
  if body.length ≠ 0 then (s, refuse .badLength) else (s, .reply .ok (summaryBody s.run))

/-- RUN_SUMMARY (R86). -/
def execRunSummary (f : RequestFrame) (s : State) : Host.Outcome State Fault Refusal :=
  .next (takeRequest runSummaryOwner 0x42 f s)

/-! ## The fixture-closed input (R70 to R72) -/

/-- A filtered state change reaches the run as the run state it finds requires (R72). -/
def State.fixtureChanged (s : State) (f : FixtureState) : State :=
  let changed := { s with run := { s.run with fixture := f, filterTimer := none } }
  match f with
  | .closed => if s.run.state = .armed then changed.enterRunning else changed
  | .opened => changed.abortForce .fixtureOpen

/-- The fixture state a raw level stands for (R70). -/
def fixtureOf (high : Bool) : FixtureState := if high then .closed else .opened

/-- A change of the raw level (R70): back to the filtered state it cancels the interval; away from it the interval is
started, and with a count of 0 expires in the same event. -/
def State.rawChanged (s : State) (high : Bool) : State :=
  let changed := { s with run := { s.run with rawHigh := high } }
  if fixtureOf high = s.run.fixture then { changed with run := { changed.run with filterTimer := none } }
  else
    let ticks := filterTicks s.settings.filterCode
    if ticks = 0 then changed.fixtureChanged (fixtureOf high)
    else { changed with run := { changed.run with filterTimer := some ticks } }

/-- FXC_CHANGE (R70): a level that is the raw level already is no change (log 3). -/
def execFxcChange (high : Bool) (s : State) : Host.Outcome State Fault Refusal :=
  if high = s.run.rawHigh then .next s else .next (s.rawChanged high)

/-- FXC_FILTER_EXPIRY (R70): the filtered state takes the value of the raw level. With no interval running nothing happens
(log 3). -/
def execFxcFilterExpiry (s : State) : Host.Outcome State Fault Refusal :=
  match s.run.filterTimer with
  | none => .next s
  | some _ => .next (s.fixtureChanged (fixtureOf s.run.rawHigh))

/-! ## The elapsed counter (R73) -/

/-- RUN_ELAPSED_TICK (R73): the counter rises while the run is RUNNING or DRAINING, saturating. -/
def execRunElapsedTick (s : State) : Host.Outcome State Fault Refusal :=
  if s.run.state = .running ∨ s.run.state = .draining then
    .next (s.setSummary { s.run.summary with elapsed := raiseSaturating s.run.summary.elapsed })
  else .next s

end Sys2Proof.Machine
end

