-- ==== Sys2Proof/Machine/Resets.lean ====
section
/-! DEFINITION. The two resets (R185 to R187): SOFT_RESET and HARD_RESET. -/

namespace Sys2Proof.Machine

/-- Every binding of a nail cleared (R30). -/
def NailEntry.unbound (e : NailEntry) : NailEntry := { e with bindings := Vector.replicate 4 none }

/-- The slots whose record is HELD. -/
def State.heldSlots (s : State) : List Slot :=
  (s.steps.filter (fun e => (e.2.record.map (fun r => r.status.isHeld)).getD false)).map Prod.fst

/-- Every HELD record resolved (R28). -/
def State.resolveAll (s : State) : State := s.heldSlots.foldl (fun t k => t.resolve k) s

/-- The soft reset before its census starts, block by block (R28, R30, R87, R88, R130, R168, R186). The program, the nail
map but for its bindings, the cards' flags, the timebase, the enables, the settings, the run number, the fixture state and
its interval, and the START numbers are kept. -/
def State.softCleared (s : State) : State :=
  let resolved := s.resolveAll.clearMarks
  { resolved with
    nails := Table.mapAll NailEntry.blank NailEntry.unbound resolved.nails
    lanes := Vector.replicate 4 Lane.blank
    ports := s.ports.map (fun p => { p with outstanding := none })
    run := { s.run with state := .idle, summary := RunSummary.cleared }
    exam := .waiting
    link := { lastGranted := 4, inFlight := none, sentCommand := s.link.sentCommand }
    census := none
    latches := Conditions.clear }

/-- The soft reset whole: the census of all sixteen cards starts in the same event (R168, R185). -/
def State.softReset (s : State) : State :=
  s.softCleared.startCensus 0 [1, 2, 3, 4, 5, 6, 7, 8, 9, 10, 11, 12, 13, 14, 15]

/-- SOFT RESET at its owner (R185). -/
def softResetOwner (body : List Byte) (s : State) : State × Answer :=
  if body.length ≠ 0 then (s, refuse .badLength) else (s.softReset, .reply .ok [])

/-- SOFT_RESET (R185, R186). -/
def execSoftReset (f : RequestFrame) (s : State) : Host.Outcome State Fault Refusal :=
  .next (takeRequest softResetOwner 0x6F f s)

/-- The part after a hard reset: State.reset, but for the raw level of FXC, which is the pin's, and with a filter interval of
5000 ticks when that level is high as the reset ends (R71, R187). The queue and the count of free values are the model's own
and stay. -/
def State.hardReset (s : State) : State :=
  { State.reset with
    run := { State.reset.run with
      rawHigh := s.run.rawHigh
      filterTimer := if s.run.rawHigh then some (filterTicks State.reset.settings.filterCode) else none }
    freeDraws := s.freeDraws
    pending := s.pending }

/-- HARD_RESET (R187), from the assertion of the reset to its end (log 19). -/
def execHardReset (s : State) : Host.Outcome State Fault Refusal := .next s.hardReset

end Sys2Proof.Machine
end

