-- ==== Sys2Proof/Machine/Transfers.lean ====
section
/-! DEFINITION. The transfers the port handles itself (R172 to R177): UNKNOWN_REQUEST_FRAME, OVERRUN_FRAME,
REPLY_COLLECTION, EMPTY_COLLECTION, TRANSFER_BEGIN and TRANSFER_WITH_NO_WHOLE_BYTE. -/

namespace Sys2Proof.Machine

/-- The catalogue: the owner of a request code (section 9.4, section 10.2). -/
def ownerOf (code : Byte) : Option (List Byte → State → State × Answer) :=
  match code.toNat with
  | 0x10 => some stepWriteOwner
  | 0x11 => some stepEditOwner
  | 0x12 => some stepReadOwner
  | 0x13 => some stepParkOwner
  | 0x14 => some stepUnparkOwner
  | 0x15 => some stepRetireOwner
  | 0x16 => some stepScanOwner
  | 0x20 => some nailReadOwner
  | 0x21 => some nailLookupOwner
  | 0x22 => some nailRetireOwner
  | 0x23 => some nailRestoreOwner
  | 0x24 => some nailCommonOwner
  | 0x30 => some cardReadOwner
  | 0x31 => some cardCensusOwner
  | 0x40 => some runStartOwner
  | 0x41 => some runAbortOwner
  | 0x42 => some runSummaryOwner
  | 0x50 => some timebaseSetOwner
  | 0x60 => some configSetOwner
  | 0x61 => some configReadOwner
  | 0x62 => some statusOwner
  | 0x63 => some enableSetOwner
  | 0x6F => some softResetOwner
  | _ => none

/-- A request frame that ended, taken while EMPTY: the checks of R173, then its owner (R175). -/
def State.takeFrame (s : State) (bytes : List Byte) : State :=
  let code := byteAt bytes 0
  let tag := byteAt bytes 1
  match firstFailing (frameChecks bytes (ownerOf code).isSome) with
  | some st => s.placeReply { code := code, tag := tag, status := st, body := [] }
  | none =>
    match ownerOf code with
    | none => s
    | some owner => handOver owner { code := code, tag := tag, body := bytes.drop 4 } s

/-- A transfer that ends with some whole bytes from the host (R172): none is neither a request nor a collection, a first
byte of 0 marks a collection, and any other a request frame, taken if the port was EMPTY at its start and discarded with
REQUEST_OVERRUN otherwise (R173, R174). -/
def transferEnds (bytes : List Byte) (s : State) : State :=
  match bytes with
  | [] => { s with transfer := none }
  | first :: _ =>
    if first = 0 then collect bytes.length s
    else
      let ended := s.endTransfer bytes.length
      if s.endingTransfer.startedIn ≠ .empty then ended.latch .requestOverrun else ended.takeFrame bytes

/-- UNKNOWN_REQUEST_FRAME (R173). The bytes decide what the transfer is (log 1). -/
def execUnknownRequestFrame (bytes : List Byte) (s : State) : Host.Outcome State Fault Refusal :=
  .next (transferEnds bytes s)

/-- OVERRUN_FRAME (R174). The bytes and the port state at the transfer's start decide what it is (log 1). -/
def execOverrunFrame (bytes : List Byte) (s : State) : Host.Outcome State Fault Refusal :=
  .next (transferEnds bytes s)

/-- REPLY_COLLECTION (R176). The port state at the transfer's start decides (log 1). -/
def execReplyCollection (count : Nat) (s : State) : Host.Outcome State Fault Refusal := .next (collect count s)

/-- EMPTY_COLLECTION (R177). The port state at the transfer's start decides (log 1). -/
def execEmptyCollection (count : Nat) (s : State) : Host.Outcome State Fault Refusal := .next (collect count s)

/-- TRANSFER_BEGIN (R172): the port state at this moment is kept for the transfer's end, with the bytes it shifts out. While
a transfer is in progress PSEL is low already, and nothing begins (log 15). -/
def execTransferBegin (s : State) : Host.Outcome State Fault Refusal :=
  match s.transfer with
  | some _ => .next s
  | none => .next { s with transfer := some { startedIn := s.port.phase, shiftOut := s.port.shiftOut } }

/-- TRANSFER_WITH_NO_WHOLE_BYTE (R172): the transfer is over and changes nothing. -/
def execTransferWithNoWholeByte (s : State) : Host.Outcome State Fault Refusal := .next { s with transfer := none }

end Sys2Proof.Machine
end

