-- ==== Sys2Proof/Machine/Dispatch.lean ====
section
/-! DEFINITION. The dispatch of commands to their meanings: one arm for each row of spec/opcode_table.json. -/

namespace Sys2Proof.Machine

/-- The effect of a command on everything but the queue. -/
def exec (i : Instr) (s : State) : Host.Outcome State Fault Refusal :=
  match i with
  | .stepWrite f => Sys2Proof.Machine.execStepWrite f s
  | .stepEdit f => Sys2Proof.Machine.execStepEdit f s
  | .stepRead f => Sys2Proof.Machine.execStepRead f s
  | .stepPark f => Sys2Proof.Machine.execStepPark f s
  | .stepUnpark f => Sys2Proof.Machine.execStepUnpark f s
  | .stepRetire f => Sys2Proof.Machine.execStepRetire f s
  | .stepScan f => Sys2Proof.Machine.execStepScan f s
  | .stepScanVisit => Sys2Proof.Machine.execStepScanVisit s
  | .nailRead f => Sys2Proof.Machine.execNailRead f s
  | .nailLookup f => Sys2Proof.Machine.execNailLookup f s
  | .nailLookupVisit => Sys2Proof.Machine.execNailLookupVisit s
  | .nailRetire f => Sys2Proof.Machine.execNailRetire f s
  | .nailRestore f => Sys2Proof.Machine.execNailRestore f s
  | .nailCommonSet f => Sys2Proof.Machine.execNailCommonSet f s
  | .nailCommonClear f => Sys2Proof.Machine.execNailCommonClear f s
  | .cardRead f => Sys2Proof.Machine.execCardRead f s
  | .cardCensus f => Sys2Proof.Machine.execCardCensus f s
  | .runStart f => Sys2Proof.Machine.execRunStart f s
  | .runAbortDrain f => Sys2Proof.Machine.execRunAbortDrain f s
  | .runAbortForce f => Sys2Proof.Machine.execRunAbortForce f s
  | .runSummary f => Sys2Proof.Machine.execRunSummary f s
  | .timebaseSet f => Sys2Proof.Machine.execTimebaseSet f s
  | .configSet f => Sys2Proof.Machine.execConfigSet f s
  | .configRead f => Sys2Proof.Machine.execConfigRead f s
  | .status f => Sys2Proof.Machine.execStatus f s
  | .enableSet f => Sys2Proof.Machine.execEnableSet f s
  | .softReset f => Sys2Proof.Machine.execSoftReset f s
  | .unknownRequestFrame bytes => Sys2Proof.Machine.execUnknownRequestFrame bytes s
  | .overrunFrame bytes => Sys2Proof.Machine.execOverrunFrame bytes s
  | .replyCollection count => Sys2Proof.Machine.execReplyCollection count s
  | .emptyCollection count => Sys2Proof.Machine.execEmptyCollection count s
  | .hardReset => Sys2Proof.Machine.execHardReset s
  | .fxcChange high => Sys2Proof.Machine.execFxcChange high s
  | .fxcFilterExpiry => Sys2Proof.Machine.execFxcFilterExpiry s
  | .runElapsedTick => Sys2Proof.Machine.execRunElapsedTick s
  | .examinationStep => Sys2Proof.Machine.execExaminationStep s
  | .settleExpiry lane => Sys2Proof.Machine.execSettleExpiry lane s
  | .converterTimeout lane => Sys2Proof.Machine.execConverterTimeout lane s
  | .releaseWaitExpiry lane => Sys2Proof.Machine.execReleaseWaitExpiry lane s
  | .ackTimeout => Sys2Proof.Machine.execAckTimeout s
  | .censusTimeout => Sys2Proof.Machine.execCensusTimeout s
  | .acknowledgement card => Sys2Proof.Machine.execAcknowledgement card s
  | .descriptor card cardType operate release check => Sys2Proof.Machine.execDescriptor card cardType operate release check s
  | .parity card => Sys2Proof.Machine.execParity card s
  | .strayAnswer answer => Sys2Proof.Machine.execStrayAnswer answer s
  | .result lane startNumber count overrange fault => Sys2Proof.Machine.execResult lane startNumber count overrange fault s
  | .damagedResultFrame lane => Sys2Proof.Machine.execDamagedResultFrame lane s
  | .transferBegin => Sys2Proof.Machine.execTransferBegin s
  | .transferWithNoWholeByte => Sys2Proof.Machine.execTransferWithNoWholeByte s

end Sys2Proof.Machine
end

