-- ==== Sys2Proof/WellFormed.lean ====
section
/-! DEFINITION. Which command terms stand for the row they are named after. The machine gives every term a meaning,
the ill-formed ones too (log 1): an ill-formed term is one whose operands make it another row's event. -/

namespace Sys2Proof

/-- A request frame that passes checks 2 and 3 of R173: its declared body length, the body's own, is 0 to 60. -/
def RequestFrame.wf (f : RequestFrame) : Bool := decide (f.body.length ≤ 60)

/-- The lowest bit of the byte at an offset of a body (R78, section 10.4); false where the body has no such byte. -/
def lowestBitAt (body : List Byte) (i : Nat) : Bool := (body.getD i 0).getLsbD 0

/-- A transfer whose bytes make it a request frame: at least one whole byte, and the first is not 0 (R172). -/
def isRequestTransfer (bytes : List Byte) : Bool :=
  match bytes with
  | [] => false
  | code :: _ => decide (code ≠ 0)

/-- The request codes of the catalogue (spec/10_formats.md, section 10.2). -/
def catalogueCodes : List Byte :=
  [0x10, 0x11, 0x12, 0x13, 0x14, 0x15, 0x16, 0x20, 0x21, 0x22, 0x23, 0x24, 0x30, 0x31, 0x40, 0x41, 0x42, 0x50, 0x60,
    0x61, 0x62, 0x63, 0x6F]

/-- Checks 1 to 4 of R173 all pass: the frame is a request the port hands to an owner. -/
def passesFrameChecks (bytes : List Byte) : Bool :=
  decide (4 ≤ bytes.length) && decide ((bytes.getD 2 0).toNat ≤ 60)
    && decide (bytes.length = 4 + (bytes.getD 2 0).toNat) && catalogueCodes.contains (bytes.getD 0 0)

/-- The term stands for the row it is named after. -/
def Instr.wf (i : Instr) : Bool :=
  match i with
  | .stepWrite f => f.wf
  | .stepEdit f => f.wf
  | .stepRead f => f.wf
  | .stepPark f => f.wf
  | .stepUnpark f => f.wf
  | .stepRetire f => f.wf
  | .stepScan f => f.wf
  | .stepScanVisit => true
  | .nailRead f => f.wf
  | .nailLookup f => f.wf
  | .nailLookupVisit => true
  | .nailRetire f => f.wf
  | .nailRestore f => f.wf
  -- a body of the right length carries the mark wanted (section 10.4)
  | .nailCommonSet f => f.wf && (decide (f.body.length ≠ 3) || lowestBitAt f.body 2)
  | .nailCommonClear f => f.wf && (decide (f.body.length ≠ 3) || !lowestBitAt f.body 2)
  | .cardRead f => f.wf
  | .cardCensus f => f.wf
  | .runStart f => f.wf
  -- a body of the right length carries the manner (R78)
  | .runAbortDrain f => f.wf && (decide (f.body.length ≠ 1) || !lowestBitAt f.body 0)
  | .runAbortForce f => f.wf && (decide (f.body.length ≠ 1) || lowestBitAt f.body 0)
  | .runSummary f => f.wf
  | .timebaseSet f => f.wf
  | .configSet f => f.wf
  | .configRead f => f.wf
  | .status f => f.wf
  | .enableSet f => f.wf
  | .softReset f => f.wf
  -- a request frame that fails a check of R173
  | .unknownRequestFrame bytes => isRequestTransfer bytes && !passesFrameChecks bytes
  | .overrunFrame bytes => isRequestTransfer bytes
  -- a collection has at least its first byte, 0 (R172)
  | .replyCollection count => decide (1 ≤ count)
  | .emptyCollection count => decide (1 ≤ count)
  | .hardReset => true
  | .fxcChange _ => true
  | .fxcFilterExpiry => true
  | .runElapsedTick => true
  | .examinationStep => true
  | .settleExpiry _ => true
  | .converterTimeout _ => true
  | .releaseWaitExpiry _ => true
  | .ackTimeout => true
  | .censusTimeout => true
  | .acknowledgement _ => true
  | .descriptor _ _ _ _ _ => true
  | .parity _ => true
  | .strayAnswer _ => true
  | .result _ _ _ _ _ => true
  | .damagedResultFrame _ => true
  | .transferBegin => true
  | .transferWithNoWholeByte => true

end Sys2Proof
end

