-- ==== Sys2Proof/Safety.lean ====
section
/-! DEFINITION. What a sound state of the part is, and the words in which the statements about its commands are written:
when a request is taken, what stays the same, how a run's end is tested, and how a step ends. -/

namespace Sys2Proof.Machine

/-! ## Request rows -/

/-- The request code and the frame of a row that is a request of the host (section 10.2). -/
def requestOf : Instr → Option (Byte × RequestFrame)
  | .stepWrite f => some (0x10, f)
  | .stepEdit f => some (0x11, f)
  | .stepRead f => some (0x12, f)
  | .stepPark f => some (0x13, f)
  | .stepUnpark f => some (0x14, f)
  | .stepRetire f => some (0x15, f)
  | .stepScan f => some (0x16, f)
  | .nailRead f => some (0x20, f)
  | .nailLookup f => some (0x21, f)
  | .nailRetire f => some (0x22, f)
  | .nailRestore f => some (0x23, f)
  | .nailCommonSet f => some (0x24, f)
  | .nailCommonClear f => some (0x24, f)
  | .cardRead f => some (0x30, f)
  | .cardCensus f => some (0x31, f)
  | .runStart f => some (0x40, f)
  | .runAbortDrain f => some (0x41, f)
  | .runAbortForce f => some (0x41, f)
  | .runSummary f => some (0x42, f)
  | .timebaseSet f => some (0x50, f)
  | .configSet f => some (0x60, f)
  | .configRead f => some (0x61, f)
  | .status f => some (0x62, f)
  | .enableSet f => some (0x63, f)
  | .softReset f => some (0x6F, f)
  | _ => none

/-- The requests of fixed length with the length of their body (section 10.2, R175). -/
def fixedLengths : List (Byte × Nat) :=
  [(0x12, 2), (0x13, 2), (0x14, 2), (0x15, 2), (0x16, 6), (0x20, 2), (0x21, 4), (0x22, 2), (0x23, 2), (0x24, 3), (0x30, 1),
    (0x31, 1), (0x40, 3), (0x41, 1), (0x42, 0), (0x50, 3), (0x60, 8), (0x61, 0), (0x62, 1), (0x63, 1), (0x6F, 0)]

/-- A request frame that ends now is taken: its transfer began while the port was EMPTY (R172, R173). -/
abbrev State.takes (s : State) : Prop := s.endingTransfer.startedIn = .empty

/-- The state with the transfer of a request frame over, as its owner finds it. -/
def State.taken (s : State) (f : RequestFrame) : State := s.endTransfer (4 + f.body.length)

/-- A state whose port has the reply to a request frame placed (R175). -/
def State.replied (t : State) (code : Byte) (f : RequestFrame) (st : Status) (body : List Byte) : State :=
  t.placeReply { code := code, tag := f.tag, status := st, body := body }

/-! ## What stays the same -/

/-- Every slot but one is the same. -/
def OtherSlotsSame (s t : State) (k : Slot) : Prop := ∀ j, j ≠ k → t.slotAt j = s.slotAt j

/-- Every lane but one is the same. -/
def OtherLanesSame (s t : State) (l : LaneNo) : Prop := ∀ m, m ≠ l → t.laneAt m = s.laneAt m

/-- Every lane but one is the same but for a grant: its link request may have gone from waiting to in flight. -/
def OtherLanesSameButGrant (s t : State) (l : LaneNo) : Prop :=
  ∀ m, m ≠ l → t.laneAt m = s.laneAt m
    ∨ ((s.laneAt m).linkRequest = .waiting ∧ t.laneAt m = { s.laneAt m with linkRequest := .inFlight })

/-- Every card but one is the same. -/
def OtherCardsSame (s t : State) (c : CardNo) : Prop := ∀ d, d ≠ c → t.cardAt d = s.cardAt d

/-- Lanes, converter ports, cards, link and census are the same. -/
def SameLinks (s t : State) : Prop :=
  t.lanes = s.lanes ∧ t.ports = s.ports ∧ t.cards = s.cards ∧ t.link = s.link ∧ t.census = s.census

/-- Timebase, enables, settings and the model's own fields are the same. -/
def SameSettings (s t : State) : Prop :=
  t.timebase = s.timebase ∧ t.enables = s.enables ∧ t.settings = s.settings ∧ t.freeDraws = s.freeDraws
    ∧ t.pending = s.pending

/-- Step Table and Nail Map are the same. -/
def SameTables (s t : State) : Prop := t.steps = s.steps ∧ t.nails = s.nails

/-- The request port's own state is the same. -/
def SamePort (s t : State) : Prop := t.port = s.port ∧ t.transfer = s.transfer ∧ t.shiftedOut = s.shiftedOut

/-! ## The run's end -/

/-- Run control with a run closed (R77): its final state, and the not-run count of the tables as they stand. -/
def RunControl.closedBy (run : RunControl) (t : State) (final : RunState) : RunControl :=
  { run with state := final, summary := { run.summary with notRun := some t.notRunCount } }

/-- The end conditions have been tested on run control and latches as an event left them (R76, R83): a run that meets one
is closed, with RUN_DONE latched; any other is as it was. -/
def RunEndTested (run : RunControl) (latches : Conditions) (t : State) : Prop :=
  if run.state = .running ∧ t.allLanesIdle = true ∧ t.candidates = [] then
    t.run = run.closedBy t .done ∧ t.latches = latches.add .runDone
  else if run.state = .draining ∧ t.allLanesIdle = true then
    t.run = run.closedBy t .aborted ∧ t.latches = latches.add .runDone
  else t.run = run ∧ t.latches = latches

/-- The examination state after an event that is a dispatch opportunity in a run state (R92, R93). -/
def examAfter (opportunity : Bool) (st : RunState) (e : ExamState) : ExamState :=
  if opportunity = true ∧ st = .running then .examining else e

/-! ## Sound requests (R11, R15) -/

/-- The refusal of each check of R11, by its order. -/
def checkRefusals : List (Nat × Status) :=
  [(1, .badLength), (2, .badNail), (3, .dupNail), (4, .badRole), (5, .badLimits), (6, .badLimits), (7, .badLimits),
    (8, .badLimits), (9, .badLimits)]

/-- Checks 2 to 4 of R11 pass on a nail list as given: its numbers are 0 to 4095, none appears twice, and no nail it places
in SRC_HI or SNS_HI is common. -/
abbrev State.namesCheck (s : State) (g : NailNames) (n : Nat) : Prop :=
  (n = 2 → g.numbers.all (fun w => decide (w.toNat ≤ 4095)) = true) ∧ (n = 3 → g.numbers.Nodup)
    ∧ (n = 4 → (s.nailAt (nailOf g.srcHi)).common = false
        ∧ g.snsHi.all (fun w => !(s.nailAt (nailOf w)).common) = true)

/-- Checks 6 to 8 of R11 pass on a limits group: RELATIVE is in effect only for a MEASURE record (R4). -/
abbrev limitsCheck (k : StepKind) (g : LimitsGroup) (n : Nat) : Prop :=
  (n = 6 → ¬ (g.relative = true ∧ k = .measure) → g.lo.toInt ≤ g.hi.toInt)
    ∧ (n = 7 → g.relative = true ∧ k = .measure → 0 < g.nominal.toInt)
    ∧ (n = 8 → g.relative = true ∧ k = .measure → g.tolLo.toNat ≤ 1000 ∧ g.tolHi.toNat ≤ 9999)

/-- Check n of R11 passes on a STEP WRITE body. -/
abbrev State.writeCheck (s : State) (body : List Byte) (n : Nat) : Prop :=
  (n = 1 → 3 ≤ body.length ∧ (readWrite body).guardCount ≤ 4 ∧ body.length = (readWrite body).impliedLength)
    ∧ s.namesCheck (readWrite body).names n ∧ (n = 5 → (readWrite body).rangeByte.toNat ≤ 6)
    ∧ limitsCheck (readWrite body).kind (readWrite body).limits n ∧ (n = 9 → (readWrite body).timing.aperture ≠ 0)

/-- Check n of R11 passes on a STEP EDIT body for a record of a kind, as R15 restricts it to the groups present. -/
abbrev State.editCheck (s : State) (body : List Byte) (k : StepKind) (n : Nat) : Prop :=
  (n = 1 → ((readEdit body).hasNails = true → (readEdit body).guardCount ≤ 4) ∧ body.length = (readEdit body).impliedLength)
    ∧ ((readEdit body).hasNails = true → s.namesCheck (readEdit body).names n)
    ∧ ((readEdit body).hasTiming = true →
        (n = 5 → (readEdit body).rangeByte.toNat ≤ 6) ∧ (n = 9 → (readEdit body).timing.aperture ≠ 0))
    ∧ ((readEdit body).hasLimits = true → limitsCheck k (readEdit body).limits n)

/-- A STEP WRITE body passes every check of R11. -/
abbrev State.writeAccepted (s : State) (body : List Byte) : Prop := ∀ c ∈ checkRefusals, s.writeCheck body c.1

/-- A STEP EDIT body holds the slot and the mask, and passes every check of R15 for a record of a kind. -/
abbrev State.editAccepted (s : State) (body : List Byte) (k : StepKind) : Prop :=
  3 ≤ body.length ∧ ∀ c ∈ checkRefusals, s.editCheck body k c.1

/-- The first check that fails, given which of them pass, has the refusal. -/
def FirstFailing (passes : Nat → Prop) (st : Status) : Prop :=
  ∃ c ∈ checkRefusals, c.2 = st ∧ ¬ passes c.1 ∧ ∀ b ∈ checkRefusals, b.1 < c.1 → passes b.1

/-! ## Layouts (section 10.3 to 10.6) -/

/-- The numbers of a nail list stand in a body from an offset on, two bytes each in list order, with the presence and the
guard count given (R3). -/
def NamesAt (body : List Byte) (i : Nat) (hasHi hasLo : Bool) (guards : Nat) (g : NailNames) : Prop :=
  g.snsHi.isSome = hasHi ∧ g.snsLo.isSome = hasLo ∧ g.guards.length = guards
    ∧ g.numbers.length = 2 + hasHi.toNat + hasLo.toNat + guards
    ∧ (∀ j, j < g.numbers.length → g.numbers[j]? = some (word16At body (i + 2 * j)))
    ∧ (g.numbers.all (fun w => decide (w.toNat ≤ 4095)) = true →
        g.toNailList.toList.map (fun n => n.val) = g.numbers.map (fun w => w.toNat)
        ∧ g.toNailList.snsHi.isSome = hasHi ∧ g.toNailList.snsLo.isSome = hasLo ∧ g.toNailList.guards.length = guards)

/-- The timing fields stand in a body at their offsets, those given as low bits read from those bits alone (R188). -/
def TimingAt (body : List Byte) (rangeAt restAt : Nat) (t : Timing) : Prop :=
  ((byteAt body rangeAt).toNat ≤ 6 → t.baseRange.val = (byteAt body rangeAt).toNat)
    ∧ t.settleClass.toNat = (byteAt body restAt).toNat % 8
    ∧ t.capacitance.toNat = (word24At body (restAt + 1)).toNat % 1048576
    ∧ t.extraSettle = word16At body (restAt + 4) ∧ t.aperture = word16At body (restAt + 6)

/-- The five limit values stand in a body from an offset on. -/
def LimitsAt (body : List Byte) (i : Nat) (relative : Bool) (g : LimitsGroup) : Prop :=
  g = { relative := relative, lo := word24At body i, hi := word24At body (i + 3), nominal := word24At body (i + 6),
        tolLo := word16At body (i + 9), tolHi := word16At body (i + 11) }

/-- The limits a record keeps of a limits group (R4, R5). -/
def LimitsKept (k : StepKind) (g : LimitsGroup) (limits : Limits) : Prop :=
  limits = if g.relative = true ∧ k = .measure then .relative g.nominal g.tolLo g.tolHi else .absolute g.lo g.hi

/-- A STEP WRITE body as the Step Table reads it, at the offsets of section 10.3, and the program it stores (R4, R5, R13,
R189). -/
def WriteRead (body : List Byte) (w : WriteBody) : Prop :=
  w.slot = word16At body 0 ∧ (w.kind = .contact ↔ bitAt body 2 0 = true) ∧ w.barrier = bitAt body 2 1
    ∧ w.guardCount = (byteAt body 2).toNat / 16 % 8 ∧ w.orderKey = word16At body 3 ∧ w.rangeByte = byteAt body 5
    ∧ w.retryByte = byteAt body 6 ∧ TimingAt body 5 7 w.timing ∧ LimitsAt body 15 (bitAt body 2 7) w.limits
    ∧ NamesAt body 28 (bitAt body 2 2) (bitAt body 2 3) w.guardCount w.names
    ∧ w.impliedLength = 28 + 2 * (2 + ((bitAt body 2 2).toNat + (bitAt body 2 3).toNat) + w.guardCount)
    ∧ w.program.kind = w.kind ∧ w.program.orderKey = w.orderKey ∧ w.program.barrier = w.barrier
    ∧ w.program.nails = w.names.toNailList ∧ w.program.timing = w.timing
    ∧ w.program.retryAllowance.val = (if w.kind = .contact then 0 else min 2 w.retryByte.toNat)
    ∧ LimitsKept w.kind w.limits w.program.limits

/-- A STEP EDIT body as the Step Table reads it: the mask at offset 2, then the groups it names in bit order, each at the
offset the groups before it imply (section 10.3, R189). -/
def EditRead (body : List Byte) (e : EditBody) : Prop :=
  let nailsAt := 3 + (if bitAt body 2 0 then 3 else 0)
  let guards := (byteAt body nailsAt).toNat / 4 % 8
  let nails := 2 + ((bitAt body nailsAt 0).toNat + (bitAt body nailsAt 1).toNat) + guards
  let timingAt := nailsAt + (if bitAt body 2 1 then 1 + 2 * nails else 0)
  let limitsAt := timingAt + (if bitAt body 2 2 then 9 else 0)
  let retryAt := limitsAt + (if bitAt body 2 3 then 14 else 0)
  let offsetAt := retryAt + (if bitAt body 2 4 then 1 else 0)
  e.slot = word16At body 0 ∧ e.hasOrder = bitAt body 2 0 ∧ e.hasNails = bitAt body 2 1 ∧ e.hasTiming = bitAt body 2 2
    ∧ e.hasLimits = bitAt body 2 3 ∧ e.hasRetry = bitAt body 2 4 ∧ e.hasOffset = bitAt body 2 5
    ∧ e.hasCounts = bitAt body 2 6 ∧ e.orderKey = word16At body 3 ∧ e.barrier = bitAt body 5 0 ∧ e.guardCount = guards
    ∧ NamesAt body (nailsAt + 1) (bitAt body nailsAt 0) (bitAt body nailsAt 1) guards e.names
    ∧ e.rangeByte = byteAt body timingAt ∧ TimingAt body timingAt (timingAt + 1) e.timing
    ∧ LimitsAt body (limitsAt + 1) (bitAt body limitsAt 0) e.limits ∧ e.retryByte = byteAt body retryAt
    ∧ e.offset = word24At body offsetAt ∧ e.impliedLength = offsetAt + (if bitAt body 2 5 then 3 else 0)

/-- The state code of a slot (section 10.2). -/
def stateCodeOf (record : Option StepRecord) : Nat :=
  match record.map StepRecord.status with
  | none => 0
  | some .ready => 1
  | some (.held _ _ _) => 2
  | some (.parked _) => 3

/-- The program part of a step stands in a reply from an offset on (section 10.3); the limits of the mode not in effect are
zero (R5). -/
def ProgramAt (b : List Byte) (i : Nat) (p : StepProgram) : Prop :=
  bitAt b i 0 = decide (p.kind = .contact) ∧ bitAt b i 1 = p.barrier ∧ bitAt b i 2 = p.nails.snsHi.isSome
    ∧ bitAt b i 3 = p.nails.snsLo.isSome ∧ (byteAt b i).toNat / 16 % 8 = p.nails.guards.length
    ∧ word16At b (i + 1) = p.orderKey ∧ (byteAt b (i + 3)).toNat = p.timing.baseRange.val
    ∧ (byteAt b (i + 4)).toNat = p.retryAllowance.val ∧ (byteAt b (i + 5)).toNat = p.timing.settleClass.toNat
    ∧ (word24At b (i + 6)).toNat = p.timing.capacitance.toNat ∧ word16At b (i + 9) = p.timing.extraSettle
    ∧ word16At b (i + 11) = p.timing.aperture
    ∧ (match p.limits with
      | .absolute lo hi =>
        bitAt b i 7 = false ∧ word24At b (i + 13) = lo ∧ word24At b (i + 16) = hi ∧ word24At b (i + 19) = 0
          ∧ word16At b (i + 22) = 0 ∧ word16At b (i + 24) = 0
      | .relative nominal tolLo tolHi =>
        bitAt b i 7 = true ∧ word24At b (i + 13) = 0 ∧ word24At b (i + 16) = 0 ∧ word24At b (i + 19) = nominal
          ∧ word16At b (i + 22) = tolLo ∧ word16At b (i + 24) = tolHi)

/-- A byte whose bits are those given, bit 0 first, and whose other bits are zero. -/
def HasBits (b : Byte) (bits : List Bool) : Prop :=
  b.toNat < 2 ^ bits.length ∧ ∀ i, i < bits.length → bits[i]? = some (b.getLsbD i)

/-- A STEP READ reply holds the whole record at the offsets of section 10.3 (R18). -/
def StepRecordAt (b : List Byte) (k : Slot) (mark : Bool) (r : StepRecord) : Prop :=
  b.length = 49 + 2 * r.program.nails.toList.length ∧ (word16At b 0).toNat = k.val
    ∧ (byteAt b 2).toNat = stateCodeOf (some r)
    ∧ (match r.status with
      | .ready => byteAt b 3 = 0 ∧ HasBits (byteAt b 4) [false, false, mark, r.stats.settleClamped] ∧ byteAt b 5 = 0
      | .parked p =>
        HasBits (byteAt b 3) [p.requested, p.nail] ∧ HasBits (byteAt b 4) [false, false, mark, r.stats.settleClamped]
          ∧ byteAt b 5 = 0
      | .held p d q =>
        HasBits (byteAt b 3) [p] ∧ HasBits (byteAt b 4) [q, d.isSome, mark, r.stats.settleClamped]
          ∧ (match d with
            | none => byteAt b 5 = 0
            | some e =>
              HasBits (byteAt b 5) [e.order.isSome, e.nails.isSome, e.timing.isSome, e.limits.isSome, e.retry.isSome,
                e.offset.isSome, e.counts]))
    ∧ ProgramAt b 6 r.program ∧ word24At b 32 = r.stats.offset ∧ byteAt b 35 = r.stats.learnCount
    ∧ (byteAt b 36).toNat = verdictCode r.stats.lastVerdict
    ∧ HasBits (byteAt b 37) [r.stats.lastValue.isSome, r.stats.lastDeviation.isSome, r.stats.lastRange.isSome,
        r.stats.lastRun.isSome]
    ∧ word24At b 38 = r.stats.lastValue.getD 0 ∧ word16At b 41 = r.stats.lastDeviation.getD 0
    ∧ byteAt b 43 = byteOf (r.stats.lastRange.getD 0) ∧ byteAt b 44 = r.stats.consecutiveFails
    ∧ word16At b 45 = r.stats.failTotal ∧ word16At b 47 = r.stats.lastRun.getD 0
    ∧ ∀ i, i < r.program.nails.toList.length →
        (r.program.nails.toList[i]?).map (fun n => n.val) = some (word16At b (49 + 2 * i)).toNat

/-- A nail entry stands in the first 14 bytes of a reply (section 10.4, R43). -/
def NailEntryAt (b : List Byte) (n : NailNo) (e : NailEntry) : Prop :=
  let held := allLanes.filterMap (fun l => (e.bindings[l]).map (fun bus => (l, bus)))
  b.length = 14 ∧ (word16At b 0).toNat = n.val ∧ (byteAt b 2).toNat = n.val / 256 ∧ (byteAt b 3).toNat = n.val % 256
    ∧ (byteAt b 4).toNat = e.state.code ∧ HasBits (byteAt b 5) [e.common] ∧ word16At b 6 = BitVec.ofNat 16 e.refCount
    ∧ (byteAt b 8).toNat = e.contactFails.toNat ∧ (byteAt b 9).toNat = held.length
    ∧ ∀ i, i < 4 → (byteAt b (10 + i)).toNat =
        (match held[i]? with
        | none => 0
        | some (l, bus) => 16 * l.val + bus.code)

/-- A card stands in a CARD READ reply at a tick length (section 10.5, R167, R53). -/
def CardAt (b : List Byte) (c : CardNo) (e : CardEntry) (T : Nat) : Prop :=
  b.length = 10 ∧ (byteAt b 0).toNat = c.val ∧ (byteAt b 1).toNat = e.state.code
    ∧ HasBits (byteAt b 2) [e.descriptor.isSome, e.checksumBad, e.paritySeen, e.timeoutSeen]
    ∧ (match e.descriptor with
      | none => ∀ i, 3 ≤ i → i < 10 → byteAt b i = 0
      | some d =>
        byteAt b 3 = d.cardType ∧ byteAt b 4 = d.operate ∧ byteAt b 5 = d.release
          ∧ word16At b 6 = BitVec.ofNat 16 (microTicks d.operate.toNat T)
          ∧ word16At b 8 = BitVec.ofNat 16 (microTicks d.release.toNat T))

/-- A run's summary stands in a RUN SUMMARY reply (section 10.6, R86). -/
def SummaryAt (b : List Byte) (run : RunControl) : Prop :=
  b.length = 40 ∧ word16At b 0 = run.number ∧ (byteAt b 2).toNat = run.summary.mode.code
    ∧ HasBits (byteAt b 3) [run.summary.reverse] ∧ (byteAt b 4).toNat = run.summary.weight.val
    ∧ (byteAt b 5).toNat = run.state.code ∧ (byteAt b 6).toNat = abortReasonCode run.summary.abortReason
    ∧ HasBits (byteAt b 7) [run.summary.notRun.isSome, decide (run.fixture = .closed)]
    ∧ word16At b 8 ++ word16At b 10 = run.summary.elapsed
    ∧ (∀ v : Fin 11, word16At b (12 + 2 * v.val) = BitVec.ofNat 16 run.summary.verdicts[v])
    ∧ word16At b 34 = BitVec.ofNat 16 run.summary.dispatched ∧ word16At b 36 = BitVec.ofNat 16 run.summary.retries
    ∧ word16At b 38 = BitVec.ofNat 16 (run.summary.notRun.getD 0)

/-- The groups of an edit have replaced their fields and left the others (R14, with R4 and R5). -/
def GroupsReplaced (b : EditBody) (r u : StepRecord) : Prop :=
  u.program.kind = r.program.kind
    ∧ (if b.hasOrder then u.program.orderKey = b.orderKey ∧ u.program.barrier = b.barrier
       else u.program.orderKey = r.program.orderKey ∧ u.program.barrier = r.program.barrier)
    ∧ u.program.nails = (if b.hasNails then b.names.toNailList else r.program.nails)
    ∧ u.program.timing = (if b.hasTiming then b.timing else r.program.timing)
    ∧ (if b.hasLimits then LimitsKept r.program.kind b.limits u.program.limits else u.program.limits = r.program.limits)
    ∧ u.program.retryAllowance.val =
        (if b.hasRetry then (if r.program.kind = .contact then 0 else min 2 b.retryByte.toNat)
        else r.program.retryAllowance.val)
    ∧ u.stats =
        { r.stats with
          offset := if b.hasOffset then b.offset else r.stats.offset
          learnCount := if b.hasCounts then 0 else r.stats.learnCount
          consecutiveFails := if b.hasCounts then 0 else r.stats.consecutiveFails
          failTotal := if b.hasCounts then 0 else r.stats.failTotal }

/-! ## How a step ends -/

/-- The requests that wait for the link are to ONLINE cards, so that a grant sends one (R160 does not arise). -/
def State.grantable (s : State) : Bool :=
  allLanes.all (fun l =>
    decide ((s.laneAt l).linkRequest ≠ .waiting)
      || (match s.laneCommand l with
        | none => false
        | some c => decide ((s.cardAt c.card).state = .online)))

/-- No lane waits for the link. -/
def State.noLaneWaits (s : State) : Bool := allLanes.all (fun l => decide ((s.laneAt l).linkRequest ≠ .waiting))

/-- A nail entry after a verdict on a CONTACT step for which it is the SRC_HI nail (R39, R40). -/
def contactNail (threshold : BitVec 4) (e : NailEntry) : Verdict → NailEntry
  | .noContact =>
    { e with
      contactFails := raiseSaturating e.contactFails
      state := if e.state = .service ∧ threshold.toNat ≤ (raiseSaturating e.contactFails).toNat then .suspect else e.state }
  | .pass => { e with contactFails := 0, state := if e.state = .suspect then .service else e.state }
  | _ => e

/-- Run control with the summary count of a verdict raised by one (R75). -/
def RunControl.counting (run : RunControl) (v : Verdict) : RunControl :=
  { run with
    summary := { run.summary with
      verdicts := run.summary.verdicts.set v.index.val (run.summary.verdicts[v.index] + 1) } }

/-- The record of a slot and the nails after a verdict has been recorded (R147 to R149). -/
def VerdictRecorded (s t : State) (k : Slot) (r : StepRecord) (w : VerdictWrite) : Prop :=
  t.slotAt k =
      { runMark := true, record := some { r with stats := r.stats.afterVerdict s.run.summary.mode s.run.number w } }
    ∧ OtherSlotsSame s t k
    ∧ (∀ n, t.nailAt n =
        (if r.program.kind = .contact ∧ n = r.program.nails.srcHi then
          contactNail s.settings.contactThreshold (s.nailAt n) w.verdict
        else s.nailAt n))

/-- A verdict on a CONTACT record moves its SRC_HI nail from SERVICE to SUSPECT (R39). -/
def State.movesToSuspect (s : State) (r : StepRecord) (v : Verdict) : Bool :=
  decide (r.program.kind = .contact) && decide ((s.nailAt r.program.nails.srcHi).state = .service)
    && decide ((contactNail s.settings.contactThreshold (s.nailAt r.program.nails.srcHi) v).state = .suspect)

/-- A verdict on a CONTACT record moves its SRC_HI nail from SUSPECT to SERVICE (R40). -/
def State.movesToService (s : State) (r : StepRecord) (v : Verdict) : Bool :=
  decide (r.program.kind = .contact) && decide ((s.nailAt r.program.nails.srcHi).state = .suspect)
    && decide ((contactNail s.settings.contactThreshold (s.nailAt r.program.nails.srcHi) v).state = .service)

/-- A lane has entered RELEASING with its step's verdict recorded and counted and its first OPEN requested (R121, R122);
`closed` is its closed count. -/
def StepEnded (s t : State) (l : LaneNo) (closed : Nat) (k : Slot) (r : StepRecord) (w : VerdictWrite) : Prop :=
  VerdictRecorded s t k r w
    ∧ t.run = s.run.counting w.verdict
    ∧ t.latches = (if s.movesToSuspect r w.verdict then s.latches.add .nailSuspect else s.latches)
    ∧ t.exam = examAfter (s.movesToService r w.verdict) s.run.state s.exam
    ∧ (∃ request, (request = .waiting ∨ request = .inFlight) ∧ t.laneAt l =
        { s.laneAt l with
          phase := .releasing, closedCount := closed, openPosition := closed, pendingEnd := none, timer := none,
          linkRequest := request
          releaseSet := allCards.filter (fun c => decide ((s.cardAt c).state = .online)
            && (r.program.nails.toList.take closed).any (fun n => decide (cardOf n = c))) })
    ∧ OtherLanesSameButGrant s t l
    ∧ t.cards = s.cards ∧ t.census = s.census ∧ SameSettings s t ∧ SamePort s t

/-- A converter port and the others after its outstanding START has been cleared (R116). -/
def OutstandingCleared (s t : State) (l : LaneNo) : Prop :=
  t.portAt l = { s.portAt l with outstanding := none } ∧ ∀ m, m ≠ l → t.portAt m = s.portAt m

/-- The census engine has gone on to the next card it covers, or ended the census (R165, R166). `latches` are those the
event left before the census moved on. -/
def CensusMovedOn (x : Census) (latches : Conditions) (t : State) : Prop :=
  match x.remaining with
  | [] => t.census = none ∧ t.link.inFlight = none ∧ t.latches = latches.add .censusDone
  | next :: rest =>
    t.census = some { current := next, remaining := rest, stage := .identify, request := .inFlight }
      ∧ t.link.inFlight = some { requester := 4, command := .identify next, resent := false,
                                 timer := t.settings.censusTimeout.toNat }
      ∧ t.link.lastGranted = 4 ∧ t.latches = latches

/-- A nail entry's reference count changed, all else of it the same. -/
def RefsBecome (s t : State) (count : NailNo → Nat) : Prop :=
  ∀ n, t.nailAt n = { s.nailAt n with refCount := count n }

/-- The slot after the resolution of a HELD record (R25): FREE with retire pending; else the stored edit applied, and the
park reasons the pending park with NAIL when a nail of the list is RETIRED. The run mark stays. -/
def resolvedSlot (s : State) (mark : Bool) (r : StepRecord) (pendingPark : Bool) (deferred : Option StepEdit)
    (retirePending : Bool) : StepSlot :=
  if retirePending then { runMark := mark, record := none }
  else
    let u := match deferred with
      | none => r
      | some e => r.edited e
    { runMark := mark
      record := some
        { u with
          status :=
            if pendingPark || s.anyRetired u.program.nails then
              .parked { requested := pendingPark, nail := s.anyRetired u.program.nails }
            else .ready } }

/-! ## Ends that reach several lanes (R80, R122 to R126) -/

/-- Only a lane in CLOSING with its command in flight has a pending end (R125), and a lane in CLOSING runs no timer
(R108). -/
def State.pendingEndsSound (s : State) : Prop :=
  ∀ l, ((s.laneAt l).phase = .closing → (s.laneAt l).timer = none)
    ∧ ((s.laneAt l).pendingEnd ≠ none → (s.laneAt l).phase = .closing ∧ (s.laneAt l).linkRequest = .inFlight)

/-- A requester is the first that waits, counted from the rank last granted (R159). -/
def State.servedNext (s : State) (r : Fin 5) : Prop :=
  s.waits r = true ∧ ∀ x, s.waits x = true → r - s.link.lastGranted - 1 ≤ x - s.link.lastGranted - 1

/-- The link with a command sent to a requester (R159, R161). -/
def State.linkSending (s : State) (r : Fin 5) (c : LinkCommand) : Link :=
  { lastGranted := r
    inFlight := some { requester := r, command := c, resent := false
                       timer := if c.isIdentify then s.settings.censusTimeout.toNat else s.settings.ackTimeout.toNat }
    sentCommand := some c }

/-- The OPEN sequence of a lane has gone on from a position, with the cards as they stand in t (R122): the highest position
at or below it whose nail is on an ONLINE card has its OPEN requested; without one the release wait runs, and one of 0 ticks
has ended the step. `base` is the lane but for its open position and link request. -/
def OpeningFrom (t : State) (l : LaneNo) (nails : List (Role × NailNo)) (n : Nat) (base : Lane) : Prop :=
  ∃ p, p < n + 1 ∧ (∀ e ∈ (nails.take n).drop p, t.nailOnline e.2 = false)
    ∧ (if p = 0 then
        let wait := releaseWaitTicks (base.releaseSet.map t.releaseTime) t.tick
        t.laneAt l = if wait = 0 then Lane.blank
          else { base with openPosition := 0, linkRequest := .none, timer := some (.releaseWait wait) }
      else (nails[p - 1]?).any (fun e => t.nailOnline e.2) = true
        ∧ ((t.laneAt l).linkRequest = .waiting ∨ (t.laneAt l).linkRequest = .inFlight)
        ∧ t.laneAt l = { base with openPosition := p, linkRequest := (t.laneAt l).linkRequest })

/-- The slot of a lane's record: as given while the lane holds it, resolved (R25) once the lane is IDLE. -/
def SlotHeldOrResolved (s t : State) (l : LaneNo) (k : Slot) (mark : Bool) (r : StepRecord) : Prop :=
  t.slotAt k =
    match (t.laneAt l).phase, r.status with
    | .idle, .held p d q => resolvedSlot s mark r p d q
    | _, _ => { runMark := mark, record := some r }

/-- A verdict without a reading has been recorded in a lane's record (R147) and the lane has entered RELEASING, with the cards
as they stand in t (R121, R122). -/
def StepEndedBy (s t : State) (l : LaneNo) (v : Verdict) : Prop :=
  match s.heldBy l with
  | none => False
  | some (k, r) =>
    SlotHeldOrResolved s t l k true
      { r with stats := r.stats.afterVerdict s.run.summary.mode s.run.number (VerdictWrite.bare v none) }
    ∧ OpeningFrom t l r.program.nails.entries (s.laneAt l).closedCount
        { s.laneAt l with
          phase := .releasing, pendingEnd := none, timer := none
          releaseSet := allCards.filter (fun c => decide ((t.cardAt c).state = .online)
            && (r.program.nails.toList.take (s.laneAt l).closedCount).any (fun n => decide (cardOf n = c))) }

/-- A lane's own record and slot are as they were. -/
def LaneSame (s t : State) (l : LaneNo) : Prop :=
  t.laneAt l = s.laneAt l ∧ ∀ k ∈ (s.laneAt l).heldSlot, t.slotAt k = s.slotAt k

/-- The same but for a grant of the lane's waiting request. -/
def LaneSameButGrant (s t : State) (l : LaneNo) : Prop :=
  (∀ k ∈ (s.laneAt l).heldSlot, t.slotAt k = s.slotAt k)
    ∧ (t.laneAt l = s.laneAt l
      ∨ ((s.laneAt l).linkRequest = .waiting ∧ t.laneAt l = { s.laneAt l with linkRequest := .inFlight }))

/-- A lane's step is under way: the lane is CLOSING, SETTLING or MEASURING. -/
def LanePhase.underway : LanePhase → Bool
  | .closing => true
  | .settling => true
  | .measuring => true
  | _ => false

/-- An end that is decided in its own event (R124, R126): the lane is SETTLING or MEASURING, or CLOSING with no command in
flight. -/
def Lane.endsAtOnce (v : Lane) : Bool :=
  v.phase.underway && !(decide (v.phase = .closing) && decide (v.linkRequest = .inFlight))

/-- A lane has ended its step's own part, to RELEASING or at once to IDLE. -/
def Left (s t : State) (l : LaneNo) : Bool := (s.laneAt l).phase.underway && !(t.laneAt l).phase.underway

/-- A lane has become IDLE. -/
def BecameIdle (s t : State) (l : LaneNo) : Bool :=
  decide ((s.laneAt l).phase ≠ .idle) && decide ((t.laneAt l).phase = .idle)

/-- Run control with the summary count of a verdict raised. -/
def RunControl.countingMany (run : RunControl) (v : Verdict) (n : Nat) : RunControl :=
  { run with
    summary := { run.summary with
      verdicts := run.summary.verdicts.set v.index.val (run.summary.verdicts[v.index] + n) } }

/-- What ends of steps leave alone or free: a slot that no busy lane holds, the nails but for the bindings of lanes that
became IDLE (R38) and the reference counts their resolutions change (R25), the converter ports but for the outstanding START
of a lane that has stopped MEASURING (R116), and the START numbers. -/
def StepsEndedFrame (s t : State) : Prop :=
  (∀ j, (∀ l, (s.laneAt l).phase ≠ .idle → (s.laneAt l).heldSlot ≠ some j) → t.slotAt j = s.slotAt j)
    ∧ (∀ n, (t.nailAt n).state = (s.nailAt n).state ∧ (t.nailAt n).common = (s.nailAt n).common
        ∧ (t.nailAt n).contactFails = (s.nailAt n).contactFails
        ∧ ∀ l : LaneNo, (t.nailAt n).bindings[l] = if BecameIdle s t l then none else (s.nailAt n).bindings[l])
    ∧ ((∀ l, BecameIdle s t l = false) → t.nails = s.nails)
    ∧ (∀ l, t.portAt l =
        if (s.laneAt l).phase = .measuring ∧ (t.laneAt l).phase ≠ .measuring then
          { s.portAt l with outstanding := none }
        else s.portAt l)

/-- Every busy lane has been ordered to abandon its step (R80, R124), `run` being run control as the force found it, and the
run's end tested (R83). -/
def LanesAbandoned (s t : State) (run : RunControl) : Prop :=
  (∀ l, if (s.laneAt l).endsAtOnce then StepEndedBy s t l .aborted
      else
        (∀ k ∈ (s.laneAt l).heldSlot, t.slotAt k = s.slotAt k)
        ∧ t.laneAt l =
          if (s.laneAt l).phase = .closing then
            { s.laneAt l with pendingEnd := some ((s.laneAt l).pendingEnd.getD .aborted) }
          else s.laneAt l)
    ∧ StepsEndedFrame s t
    ∧ RunEndTested (run.countingMany .aborted (allLanes.filter (fun l => (s.laneAt l).endsAtOnce)).length) s.latches t
    ∧ t.exam = s.exam ∧ t.census = s.census ∧ (s.link.inFlight ≠ none → t.link = s.link)

/-- The release of a lane has gone on from an open position (R122): its OPEN sequence by OpeningFrom, its step ended when a
release wait of 0 ticks expired in the event (R123), and nothing else changed but for a grant to another lane. -/
def ReleaseGoneOn (s t : State) (l : LaneNo) (k : Slot) (r : StepRecord) (n : Nat) : Prop :=
  OpeningFrom t l r.program.nails.entries n (s.laneAt l)
    ∧ SlotHeldOrResolved s t l k (s.slotAt k).runMark r ∧ OtherSlotsSame s t k ∧ OtherLanesSameButGrant s t l
    ∧ StepsEndedFrame s t
    ∧ (if BecameIdle s t l then t.exam = examAfter true s.run.state s.exam ∧ RunEndTested s.run s.latches t
      else t.exam = s.exam ∧ t.run = s.run ∧ t.latches = s.latches)
    ∧ t.ports = s.ports ∧ t.cards = s.cards ∧ t.census = s.census ∧ SameSettings s t ∧ SamePort s t

/-- A command of lane l has failed and taken card c OFFLINE (R162): the lane acts by R114 or R122, and every other lane whose
record names a nail on the card has taken the offline notice (R126). The grants of the event come last: a waiting OPEN to a
card that is not ONLINE may have failed at its grant (R160). A census is the same unless it waits for the link, which no
census does while a lane is busy (R164). -/
def OfflineTaken (s t : State) (l : LaneNo) (c : CardNo) : Prop :=
  (match (s.laneAt l).phase, s.heldBy l with
    | .closing, _ => StepEndedBy s t l (((s.laneAt l).pendingEnd.map PendingEnd.verdict).getD .matrixFault)
    | .releasing, some (k, r) =>
      SlotHeldOrResolved s t l k (s.slotAt k).runMark r
        ∧ OpeningFrom t l r.program.nails.entries ((s.laneAt l).openPosition - 1) (s.laneAt l)
    | _, _ => True)
  ∧ (∀ m, m ≠ l →
      match s.heldBy m with
      | none => t.laneAt m = s.laneAt m
      | some (k, r) =>
        let v := s.laneAt m
        if v.phase = .releasing then
          LaneSameButGrant s t m
            ∨ (v.linkRequest = .waiting
              ∧ (r.program.nails.entries[v.openPosition - 1]?).any (fun e => t.nailOnline e.2) = false
              ∧ SlotHeldOrResolved s t m k (s.slotAt k).runMark r
              ∧ OpeningFrom t m r.program.nails.entries (v.openPosition - 1) v)
        else if r.program.nails.toList.any (fun n => decide (cardOf n = c)) then
          if v.endsAtOnce then StepEndedBy s t m .matrixFault
          else
            t.laneAt m = { v with pendingEnd := some (v.pendingEnd.getD .matrixFault) } ∧ t.slotAt k = s.slotAt k
        else if v.linkRequest = .waiting then
          v.phase = .closing → (r.program.nails.entries[v.closedCount]?).any (fun e => t.nailOnline e.2) = true →
            LaneSameButGrant s t m
        else LaneSame s t m)
  ∧ StepsEndedFrame s t
  ∧ (s.pendingEndsSound →
      let left := (allLanes.filter (fun m => Left s t m)).length
      let aborted := if (s.laneAt l).pendingEnd = some .aborted then 1 else 0
      let run := (s.run.countingMany .matrixFault (left - aborted)).countingMany .aborted aborted
      if (allLanes.any (fun m => BecameIdle s t m)) then RunEndTested run (s.latches.add .cardOffline) t
      else t.run = run ∧ t.latches = s.latches.add .cardOffline)
  ∧ t.exam = examAfter (allLanes.any (fun m => BecameIdle s t m)) s.run.state s.exam
  ∧ (s.waits 4 = false → t.census = s.census)

/-! ## The Dispatcher's tests -/

/-- A window entry that one examination step passes over (tests 4 to 6 of R93): it is no barrier, fails no skip test, and a
barrier is held, no lane is IDLE, or its nails cannot be bound. -/
def State.passedOver (s : State) (k : Slot) : Bool :=
  match s.recordAt k with
  | none => true
  | some r =>
    !s.touchesDeadCard r && !s.touchesSuspect r && !r.program.barrier
      && (s.barrierHeld || (match s.idleLane with
        | none => true
        | some l => !s.bindable l r.program.nails))

/-! ## Sound states -/

/-- The Step Table and the Nail Map are in their canonical form (log 10). -/
def State.canonical (s : State) : Bool := Table.wf StepSlot.blank s.steps && Table.wf NailEntry.blank s.nails

/-- A lane that is IDLE holds no slot, has no link request and runs no timer (R109), and no nail is bound to it (R35). -/
def State.idleLanesClean (s : State) : Prop :=
  ∀ l, (s.laneAt l).phase = .idle → s.laneAt l = Lane.blank ∧ ∀ n, ((s.nailAt n).bindings[l]) = none

/-- While the run state is IDLE, ARMED, DONE or ABORTED, every lane is IDLE (R64): a lane is busy only while the run is
RUNNING or DRAINING. -/
def State.lanesQuiet (s : State) : Prop :=
  s.run.state ≠ .running → s.run.state ≠ .draining → ∀ l, (s.laneAt l).phase = .idle

/-- A census is in progress only while no run is (R66, R164). -/
def State.censusQuiet (s : State) : Prop := s.census ≠ none → s.run.state.active = false

/-- While the link is free, nobody waits for it (R159). -/
def State.linkServed (s : State) : Prop := s.link.inFlight = none → ∀ r, s.waits r = false

/-- The number of records that name a nail (R31). -/
def State.refsOf (s : State) (n : NailNo) : Nat :=
  (s.steps.filter (fun e => match e.2.record with
    | none => false
    | some r => r.program.nails.names n)).length

/-- A nail list names no nail twice and has at most four guards (R3). -/
def NailList.sound (l : NailList) : Bool := decide l.toList.Nodup && decide (l.guards.length ≤ 4)

/-- The nail list of a stored deferred edit is sound (R15, R17). -/
def StepStatus.editSound : StepStatus → Bool
  | .held _ (some e) _ =>
    match e.nails with
    | none => true
    | some l => l.sound
  | _ => true

/-- The nail lists of all records and of all stored edits are sound (R3). -/
def State.listsSound (s : State) : Bool :=
  s.steps.all (fun e => match e.2.record with
    | none => true
    | some r => r.program.nails.sound && r.status.editSound)

/-- Every reference count is the number of records that name the nail (R31). -/
def State.refsExact (s : State) : Prop := ∀ n, (s.nailAt n).refCount = s.refsOf n

/-- Each busy lane holds one HELD record of its own, each HELD record is held by a busy lane, and an IDLE lane holds no
slot (R109). -/
def State.heldMatches (s : State) : Prop :=
  (∀ l, (s.laneAt l).phase ≠ .idle →
      ∃ k r, (s.laneAt l).heldSlot = some k ∧ s.recordAt k = some r ∧ r.status.isHeld = true)
    ∧ (∀ l, (s.laneAt l).phase = .idle → s.laneAt l = Lane.blank)
    ∧ (∀ l m, (s.laneAt l).phase ≠ .idle → (s.laneAt m).phase ≠ .idle → (s.laneAt l).heldSlot = (s.laneAt m).heldSlot →
        l = m)
    ∧ (∀ k r, s.recordAt k = some r → r.status.isHeld = true →
        ∃ l, (s.laneAt l).phase ≠ .idle ∧ (s.laneAt l).heldSlot = some k)

end Sys2Proof.Machine
end

