-- ==== Sys2Proof/Certificates/Slice0/Obligations.lean ====
section
/-! DEFINITION. The statements for the provers, grouped by block. Each docstring says what is claimed and where it rests. -/

open Sys2Proof Sys2Proof.Machine

/-! ## The queue and the resets -/

/-- A step takes the command at the front of the queue and makes its effect on the state with the queue's rest (log 5). -/
def Obligations.StepRunsFrontCommand : Prop :=
  ∀ (s : State) (c : Instr) (rest : List Instr), s.pending = c :: rest → step s = exec c { s with pending := rest }

/-- An event that finds nothing to act on changes nothing: the model's reading of R50, R70, R73, R93, R27 and R44 (log 3,
log 5, log 15). -/
def Obligations.NothingToActOnChangesNothing : Prop :=
  ∀ s : State,
    (s.pending = [] → step s = .next s)
    ∧ (∀ l, (∀ m, (s.laneAt l).timer ≠ some (.settle m)) → exec (.settleExpiry l) s = .next s)
    ∧ (∀ l, (∀ m, (s.laneAt l).timer ≠ some (.converterTimeout m)) → exec (.converterTimeout l) s = .next s)
    ∧ (∀ l, (∀ m, (s.laneAt l).timer ≠ some (.releaseWait m)) → exec (.releaseWaitExpiry l) s = .next s)
    ∧ ((∀ f, s.link.inFlight = some f → f.command.isIdentify = true) → exec .ackTimeout s = .next s)
    ∧ ((∀ f, s.link.inFlight = some f → f.command.isIdentify = false) → exec .censusTimeout s = .next s)
    ∧ (s.run.filterTimer = none → exec .fxcFilterExpiry s = .next s)
    ∧ exec (.fxcChange s.run.rawHigh) s = .next s
    ∧ (s.exam = .waiting → exec .examinationStep s = .next s)
    ∧ ((∀ q f k found, s.port ≠ .holding q (.scan f k found)) → exec .stepScanVisit s = .next s)
    ∧ ((∀ q n k found, s.port ≠ .holding q (.lookup n k found)) → exec .nailLookupVisit s = .next s)
    ∧ (s.run.state ≠ .running → s.run.state ≠ .draining → exec .runElapsedTick s = .next s)
    ∧ (s.transfer ≠ none → exec .transferBegin s = .next s)

/-- What a hard reset leaves, block by block (R1, R29, R49, R84, R87, R88, R108, R116, R154, R169, R171, R187 and the table of
section 9.7). -/
def Obligations.ResetLeavesSpecValues : Prop :=
  let s := State.reset
  (∀ k, s.slotAt k = { runMark := false, record := none })
    ∧ (∀ n, s.nailAt n = { state := .service, common := false, refCount := 0, contactFails := 0,
                           bindings := Vector.replicate 4 none })
    ∧ s.timebase = { prescale := 9, divisor := 1 } ∧ s.tick = 1000000
    ∧ s.run.state = .idle ∧ s.run.number = 0 ∧ s.run.fixture = .opened
    ∧ s.run.summary = { mode := .test, reverse := false, weight := 0, abortReason := none, elapsed := 0,
                        verdicts := Vector.replicate 11 0, dispatched := 0, retries := 0, notRun := none }
    ∧ s.exam = .waiting
    ∧ (∀ l, s.laneAt l = Lane.blank)
    ∧ Lane.blank = { phase := .idle, heldSlot := none, closedCount := 0, linkRequest := .none, pendingEnd := none,
                     retriesUsed := 0, rangeInUse := 0, releaseSet := [], openPosition := 0, timer := none }
    ∧ (∀ l, (s.portAt l).startNumber = 0 ∧ (s.portAt l).outstanding = none)
    ∧ (∀ c, s.cardAt c = { state := .census, descriptor := none, checksumBad := false, paritySeen := false,
                           timeoutSeen := false })
    ∧ s.link.lastGranted = 4
    ∧ s.link.inFlight = some { requester := 4, command := .identify 0, resent := false, timer := 500 }
    ∧ s.census = some { current := 0, remaining := [1, 2, 3, 4, 5, 6, 7, 8, 9, 10, 11, 12, 13, 14, 15], stage := .identify,
                        request := .inFlight }
    ∧ s.port = .empty ∧ s.transfer = none ∧ s.readyLine = true ∧ s.replyLine = false ∧ s.attn = false
    ∧ (∀ c, s.latches.has c = false ∧ s.enables.has c = false)
    ∧ s.settings = { contactThreshold := 3, ackTimeout := 50, converterMargin := 200, filterCode := 2,
                     censusTimeout := 500 }

/-- SOFT_RESET and HARD_RESET (R28, R30, R87, R88, R130, R168, R185 to R187). What is said of the wires is the model's choice
(log 9): a hard reset clears shiftedOut and each sentStart, a soft reset keeps sentStart. That HARD_RESET keeps the raw level
of FXC is the model's choice (log 8), and freeDraws and pending are the model's own fields. -/
def Obligations.ResetsMakeTheirValues : Prop :=
  (∀ s : State, exec .hardReset s = .next
    { State.reset with
      run := { State.reset.run with rawHigh := s.run.rawHigh, filterTimer := if s.run.rawHigh then some 5000 else none }
      freeDraws := s.freeDraws
      pending := s.pending })
  ∧ ∀ (s : State) (f : RequestFrame), s.takes → s.canonical = true → f.body = [] →
    ∃ t, exec (.softReset f) s = .next t
      ∧ (∀ k, (s.slotAt k).record = none → t.slotAt k = { runMark := false, record := none })
      ∧ (∀ k r, (s.slotAt k).record = some r → r.status.isHeld = false →
          t.slotAt k = { runMark := false, record := some r })
      ∧ (∀ k r p d q, (s.slotAt k).record = some r → r.status = .held p d q →
          t.slotAt k = resolvedSlot s false r p d q)
      ∧ (∀ n, (t.nailAt n).bindings = Vector.replicate 4 none ∧ (t.nailAt n).state = (s.nailAt n).state
          ∧ (t.nailAt n).common = (s.nailAt n).common ∧ (t.nailAt n).contactFails = (s.nailAt n).contactFails)
      ∧ (∀ l, t.laneAt l = Lane.blank)
      ∧ (∀ l, t.portAt l = { s.portAt l with outstanding := none })
      ∧ t.run = { s.run with state := .idle, summary := State.reset.run.summary }
      ∧ t.exam = .waiting
      ∧ (∀ c, t.cardAt c = { s.cardAt c with state := .census, descriptor := none })
      ∧ t.census = some { current := 0, remaining := [1, 2, 3, 4, 5, 6, 7, 8, 9, 10, 11, 12, 13, 14, 15], stage := .identify,
                          request := .inFlight }
      ∧ t.link = { lastGranted := 4
                   inFlight := some { requester := 4, command := .identify 0, resent := false,
                                      timer := s.settings.censusTimeout.toNat }
                   sentCommand := some (.identify 0) }
      ∧ t.latches = State.reset.latches ∧ SameSettings s t
      ∧ t.port = .replying { code := 0x6F, tag := f.tag, status := .ok, body := [] } ∧ t.transfer = none

/-! ## The request port -/

/-- A request frame whose transfer began while the port was not EMPTY is discarded unchecked, whatever it is, and
REQUEST_OVERRUN is set; the port keeps what it holds (R172 with R174; logs 1 and 2 for a transfer without a beginning). -/
def Obligations.OverrunFramesAreDiscarded : Prop :=
  ∀ s : State, s.endingTransfer.startedIn ≠ .empty →
    (∀ i code f, requestOf i = some (code, f) → exec i s = .next ((s.taken f).latch .requestOverrun)
      ∧ ((s.taken f).latch .requestOverrun).port = s.port)
    ∧ (∀ (b : Byte) (bytes : List Byte), b ≠ 0 →
        exec (.overrunFrame (b :: bytes)) s = .next ((s.endTransfer (bytes.length + 1)).latch .requestOverrun)
        ∧ exec (.unknownRequestFrame (b :: bytes)) s = .next ((s.endTransfer (bytes.length + 1)).latch .requestOverrun)
        ∧ ((s.endTransfer (bytes.length + 1)).latch .requestOverrun).port = s.port)

/-- A request frame taken that fails a check of R173 is answered by the port itself, in the order of its table; nothing else
changes. A request of fixed length with a body of any other length is answered BAD_LENGTH before any other check, and nothing
else changes (R175, with the lengths of section 10.2). -/
def Obligations.MalformedFramesAreRefused : Prop :=
  (∀ (s : State) (b : Byte) (bytes : List Byte), s.takes → b ≠ 0 →
    let frame := b :: bytes
    ((frame.length < 4 ∨ 60 < (byteAt frame 2).toNat ∨ frame.length ≠ 4 + (byteAt frame 2).toNat) →
      exec (.unknownRequestFrame frame) s = .next ((s.endTransfer frame.length).placeReply
        { code := b, tag := byteAt frame 1, status := .badLength, body := [] }))
    ∧ (4 ≤ frame.length → (byteAt frame 2).toNat ≤ 60 → frame.length = 4 + (byteAt frame 2).toNat → b ∉ catalogueCodes →
      exec (.unknownRequestFrame frame) s = .next ((s.endTransfer frame.length).placeReply
        { code := b, tag := byteAt frame 1, status := .badRequest, body := [] }))
    ∧ (bytes = [] → byteAt frame 1 = 0))
  ∧ (∀ (s : State) (i : Instr) (code : Byte) (f : RequestFrame), s.takes → requestOf i = some (code, f) →
    60 < f.body.length → exec i s = .next ((s.taken f).replied code f .badLength []))
  ∧ (∀ (s : State) (i : Instr) (code : Byte) (f : RequestFrame) (n : Nat), s.takes → requestOf i = some (code, f) →
    (code, n) ∈ fixedLengths → f.body.length ≠ n → exec i s = .next ((s.taken f).replied code f .badLength []))
  ∧ ∀ b : Byte, b ∈ catalogueCodes ↔ b = 0x10 ∨ b = 0x11 ∨ b ∈ fixedLengths.map Prod.fst

/-- A reply whose status is a refusal changes nothing in the part apart from the port's own move to REPLYING (section
9.5). -/
def Obligations.RefusalChangesOnlyThePort : Prop :=
  ∀ (s t : State) (i : Instr) (code : Byte) (f : RequestFrame) (q : Reply),
    requestOf i = some (code, f) → s.takes → exec i s = .next t → t.port = .replying q →
    q.status ≠ .ok → q.status ≠ .deferred → q.status ≠ .started →
    t = (s.taken f).replied code f q.status []

/-- A collection that began while REPLYING shifts the reply out, then zeros; a whole one empties the port, a short one leaves
the reply waiting (R176). A reply's bytes are the header of section 10.2, with the status by its code, and then the body. -/
def Obligations.CollectionReturnsTheReply : Prop :=
  (∀ r : Reply, r.frame = [r.code, r.tag, r.status.code, BitVec.ofNat 8 r.body.length] ++ r.body) ∧
  [Status.ok, .deferred, .started, .busy, .notReady, .notActive, .tableFull, .slotInUse, .noSuchStep, .badRequest, .badLength,
      .badNail, .dupNail, .badRole, .badLimits, .nailRetired, .nailInUse].map Status.code =
    [0x00, 0x01, 0x02, 0x10, 0x11, 0x12, 0x20, 0x21, 0x22, 0x30, 0x31, 0x32, 0x33, 0x34, 0x35, 0x36, 0x37] ∧
  ∀ (s : State) (r : Reply) (count : Nat), s.port = .replying r → 1 ≤ count →
    (s.transfer = none ∨ s.transfer = some { startedIn := .replying, shiftOut := r.frame }) →
    (4 + r.body.length ≤ count → exec (.replyCollection count) s = .next
      { s with
        port := .empty, transfer := none
        shiftedOut := r.frame ++ List.replicate (count - (4 + r.body.length)) 0 })
    ∧ (count < 4 + r.body.length → exec (.replyCollection count) s = .next
        { s with transfer := none, shiftedOut := r.frame.take count })

/-- A collection that began while no reply waited returns zeros and changes nothing; a transfer's beginning keeps the port
state, and one with no whole byte changes nothing (R172, R177). The transfer that ends is the one in progress, or without one
(log 2) one that began in the port state as it stands. -/
def Obligations.TransfersWithoutEffect : Prop :=
  ∀ s : State,
    (∀ x, s.transfer = some x → s.endingTransfer = x) ∧ (s.transfer = none → s.endingTransfer.startedIn = s.port.phase) ∧
    (∀ count, 1 ≤ count → s.endingTransfer.startedIn ≠ .replying → s.endingTransfer.shiftOut = [] →
      exec (.emptyCollection count) s = .next { s with transfer := none, shiftedOut := List.replicate count 0 })
    ∧ exec .transferWithNoWholeByte s = .next { s with transfer := none }
    ∧ (s.transfer = none → exec .transferBegin s = .next
        { s with
          transfer := some
            { startedIn := s.port.phase
              shiftOut := match s.port with
                | .replying r => r.frame
                | _ => [] } })

/-- ATTN is high exactly while a latch is set whose enable is on; READY and REPLY follow the port state (R171, R180). A cause
that reports sets its own latch and no other (R179). -/
def Obligations.AttnFollowsEnabledLatches : Prop :=
  ∀ s : State,
    (s.attn = true ↔ ∃ c, s.latches.has c = true ∧ s.enables.has c = true)
    ∧ (s.readyLine = true ↔ s.port = .empty)
    ∧ (s.replyLine = true ↔ ∃ r, s.port = .replying r)
    ∧ (∀ c d, (s.latch c).latches.has d = (s.latches.has d || decide (d = c)))
    ∧ (∀ c, { s with latches := s.latches.add c } = s.latch c)

/-- STATUS reports the latches as they stand, the enables, the run state, the census and the lane phases, and then clears the
latches its mask names; a mask bit that names no latch is ignored (R181). -/
def Obligations.StatusReportsThenClears : Prop :=
  ∀ (s : State) (f : RequestFrame), s.takes → f.body.length = 1 →
    exec (.status f) s = .next
      (({ s.taken f with latches := s.latches.without (Conditions.ofByte (byteAt f.body 0)) }).replied 0x62 f .ok
        [s.latches.toByte, s.enables.toByte, byteOf s.run.state.code, byteOf s.census.isSome.toNat,
          byteOf (s.laneAt 0).phase.code, byteOf (s.laneAt 1).phase.code, byteOf (s.laneAt 2).phase.code,
          byteOf (s.laneAt 3).phase.code])
    ∧ (∀ c, (s.latches.without (Conditions.ofByte (byteAt f.body 0))).has c =
        (s.latches.has c && !(Conditions.ofByte (byteAt f.body 0)).has c))

/-- ENABLE SET replaces all six enables, ignores bits 6 and 7, sets and clears no latch, sets ATTN by the new enables, and
replies with the enables as they now stand and the latches (R182, R180). -/
def Obligations.EnableSetReplacesEnables : Prop :=
  ∀ (s : State) (f : RequestFrame), s.takes → f.body.length = 1 →
    exec (.enableSet f) s = .next
      (({ s.taken f with enables := Conditions.ofByte (byteAt f.body 0) }).replied 0x63 f .ok
        [byteAt f.body 0 &&& 0x3F, s.latches.toByte])
    ∧ ((({ s.taken f with enables := Conditions.ofByte (byteAt f.body 0) } : State).replied 0x63 f .ok
        [byteAt f.body 0 &&& 0x3F, s.latches.toByte]).attn = true
      ↔ ∃ c, s.latches.has c = true ∧ (Conditions.ofByte (byteAt f.body 0)).has c = true)
    ∧ (Conditions.ofByte (byteAt f.body 0)).runDone = (byteAt f.body 0).getLsbD 0
    ∧ (Conditions.ofByte (byteAt f.body 0)).cardOffline = (byteAt f.body 0).getLsbD 1
    ∧ (Conditions.ofByte (byteAt f.body 0)).nailSuspect = (byteAt f.body 0).getLsbD 2
    ∧ (Conditions.ofByte (byteAt f.body 0)).requestOverrun = (byteAt f.body 0).getLsbD 3
    ∧ (Conditions.ofByte (byteAt f.body 0)).lateResult = (byteAt f.body 0).getLsbD 4
    ∧ (Conditions.ofByte (byteAt f.body 0)).censusDone = (byteAt f.body 0).getLsbD 5

/-- CONFIG READ returns the five settings, the prescale code, the divisor and the tick length in every run state and during a
census, and changes nothing (R184). -/
def Obligations.ConfigReadReturnsSettings : Prop :=
  ∀ (s : State) (f : RequestFrame), s.takes → f.body = [] →
    exec (.configRead f) s = .next ((s.taken f).replied 0x61 f .ok
      ([byteOf s.settings.contactThreshold.toNat] ++ bytes16 s.settings.ackTimeout ++ bytes16 s.settings.converterMargin
        ++ [byteOf s.settings.filterCode.toNat] ++ bytes16 s.settings.censusTimeout
        ++ [byteOf s.timebase.prescale.toNat] ++ bytesOf16 s.timebase.divisor.toNat
        ++ bytes32 (BitVec.ofNat 32 s.tick)))
    ∧ s.tick < 2 ^ 32

/-- CONFIG SET stores each setting clamped, TIMEBASE SET the low bits of its fields; both are refused BUSY while a run or a
census is in progress (R52, R183). -/
def Obligations.SettingsRequestsStoreTheirFields : Prop :=
  ∀ (s : State) (f : RequestFrame), s.takes →
    (f.body.length = 8 → s.run.state.active = false → s.census = none →
      ∃ c : Settings, exec (.configSet f) s = .next (({ s.taken f with settings := c }).replied 0x60 f .ok
          ([byteOf c.contactThreshold.toNat] ++ bytes16 c.ackTimeout ++ bytes16 c.converterMargin
            ++ [byteOf c.filterCode.toNat] ++ bytes16 c.censusTimeout))
        ∧ c.contactThreshold.toNat = max 1 (min 15 (byteAt f.body 0).toNat)
        ∧ c.ackTimeout.toNat = max 1 (word16At f.body 1).toNat
        ∧ c.converterMargin.toNat = max 1 (word16At f.body 3).toNat
        ∧ c.filterCode.toNat = min 3 (byteAt f.body 5).toNat
        ∧ c.censusTimeout.toNat = max 1 (word16At f.body 6).toNat)
    ∧ (f.body.length = 3 → s.run.state.active = false → s.census = none →
      ∃ b : Timebase, exec (.timebaseSet f) s = .next (({ s.taken f with timebase := b }).replied 0x50 f .ok
          ([byteOf b.prescale.toNat] ++ bytesOf16 b.divisor.toNat ++ bytes32 (BitVec.ofNat 32 b.tickLength)))
        ∧ b.prescale.toNat = (byteAt f.body 0).toNat % 16
        ∧ b.divisor.toNat = (word16At f.body 1).toNat % 2048)
    ∧ (s.run.state.active = true ∨ s.census ≠ none →
        (f.body.length = 8 → exec (.configSet f) s = .next ((s.taken f).replied 0x60 f .busy []))
        ∧ (f.body.length = 3 → exec (.timebaseSet f) s = .next ((s.taken f).replied 0x50 f .busy [])))

/-- STEP READ, NAIL READ and RUN SUMMARY return their records and change nothing (R18, R43, R86), and the bytes of the
replies hold the fields at the offsets of sections 10.3, 10.4 and 10.6, most significant byte first (R188), with the codes of
section 10.2 for step states, verdicts, buses and roles, nail, card and run states, run modes, abort reasons and lane
phases. -/
def Obligations.ReadRequestsReturnRecords : Prop :=
  (∀ (s : State) (f : RequestFrame), s.takes →
    (∀ k r, f.body.length = 2 → (word16At f.body 0).toNat = k.val → s.recordAt k = some r →
      exec (.stepRead f) s = .next ((s.taken f).replied 0x12 f .ok (stepRecordBody k (s.slotAt k) r)))
    ∧ (f.body.length = 2 → (∀ k : Slot, (word16At f.body 0).toNat = k.val → s.recordAt k = none) →
        exec (.stepRead f) s = .next ((s.taken f).replied 0x12 f .noSuchStep []))
    ∧ (∀ n : NailNo, f.body.length = 2 → (word16At f.body 0).toNat = n.val →
        exec (.nailRead f) s = .next ((s.taken f).replied 0x20 f .ok (nailEntryBody n (s.nailAt n))))
    ∧ (f.body.length = 2 → 4096 ≤ (word16At f.body 0).toNat →
        exec (.nailRead f) s = .next ((s.taken f).replied 0x20 f .badNail []))
    ∧ (f.body = [] → exec (.runSummary f) s = .next ((s.taken f).replied 0x42 f .ok (summaryBody s.run))))
  ∧ (∀ (k : Slot) (mark : Bool) (r : StepRecord), r.program.nails.guards.length ≤ 4 →
      StepRecordAt (stepRecordBody k { runMark := mark, record := some r } r) k mark r)
  ∧ (∀ (n : NailNo) (e : NailEntry), NailEntryAt (nailEntryBody n e) n e)
  ∧ (∀ run : RunControl, SummaryAt (summaryBody run) run)
  ∧ [none, some .pass, some .failLow, some .failHigh, some .overrange, some .noContact, some .learned, some .skipNail,
      some .skipCard, some .matrixFault, some .converterFault, some .aborted].map verdictCode = List.range 12
  ∧ (stateCodeOf none = 0 ∧ ∀ r : StepRecord, (r.status = .ready → stateCodeOf (some r) = 1)
      ∧ ((∃ p d q, r.status = .held p d q) → stateCodeOf (some r) = 2) ∧ ((∃ p, r.status = .parked p) → stateCodeOf (some r) = 3))
  ∧ [Role.srcHi, .srcLo, .snsHi, .snsLo, .guard].map Role.code = [0, 1, 2, 3, 4]
  ∧ [NailState.service, .suspect, .retired].map NailState.code = [0, 1, 2]
  ∧ [CardState.absent, .census, .online, .offline].map CardState.code = [0, 1, 2, 3]
  ∧ [RunState.idle, .armed, .running, .draining, .done, .aborted].map RunState.code = [0, 1, 2, 3, 4, 5]
  ∧ [RunMode.test, .contact, .learn].map RunMode.code = [1, 2, 3]
  ∧ [none, some AbortReason.drainRequest, some .forceRequest, some .fixtureOpen].map abortReasonCode = [0, 1, 2, 3]
  ∧ [LanePhase.idle, .closing, .settling, .measuring, .releasing].map LanePhase.code = [0, 1, 2, 3, 4]
  ∧ (∀ (b : List Byte) (i : Nat), byteAt b i = (b[i]?).getD 0
      ∧ (word16At b i).toNat = 256 * (byteAt b i).toNat + (byteAt b (i + 1)).toNat
      ∧ (word24At b i).toNat = 65536 * (byteAt b i).toNat + 256 * (byteAt b (i + 1)).toNat + (byteAt b (i + 2)).toNat)
  ∧ ∀ n : Nat, byteOf n = BitVec.ofNat 8 n ∧ bytesOf16 n = [BitVec.ofNat 8 (n / 256), BitVec.ofNat 8 n]
      ∧ (∀ w : BitVec 16, bytes16 w = bytesOf16 w.toNat)
      ∧ (∀ w : BitVec 32, bytes32 w = bytesOf16 (w.toNat / 65536) ++ bytesOf16 w.toNat)

/-! ## Step records -/

/-- An accepted STEP WRITE stores the whole step in the slot named, or for ANY in the lowest FREE slot, READY or PARKED with
NAIL, keeps the run mark, and raises its nails' reference counts; otherwise the first check of R11 that fails, then the choice of a
slot, decides the refusal (R11 to R13). The learned and recorded fields are those of R6. The body is read at the offsets of
section 10.3. -/
def Obligations.StepWriteStoresRecord : Prop :=
  (∀ (s : State) (f : RequestFrame), s.takes →
    (∀ k, s.writeAccepted f.body → s.recordAt k = none →
      ((word16At f.body 0).toNat = k.val
        ∨ (word16At f.body 0 = 0xFFFF ∧ ∀ j, j < k → s.recordAt j ≠ none)) →
      let p := (readWrite f.body).program
      ∃ t, exec (.stepWrite f) s = .next t
        ∧ t.slotAt k =
            { runMark := (s.slotAt k).runMark
              record := some
                { program := p, stats := StepStats.fresh
                  status := if s.anyRetired p.nails then .parked { requested := false, nail := true } else .ready } }
        ∧ OtherSlotsSame s t k
        ∧ RefsBecome s t (fun n => (s.nailAt n).refCount + (if p.nails.names n then 1 else 0))
        ∧ t.port = .replying
            { code := 0x10, tag := f.tag, status := .ok
              body := bytesOf16 k.val ++ (if s.anyRetired p.nails then [3, 2] else [1, 0]) }
        ∧ t.exam = examAfter (!s.anyRetired p.nails) s.run.state s.exam
        ∧ t.run = s.run ∧ t.latches = s.latches ∧ SameLinks s t ∧ SameSettings s t)
    ∧ (s.writeAccepted f.body → (∃ k : Slot, (word16At f.body 0).toNat = k.val ∧ s.recordAt k ≠ none) →
        exec (.stepWrite f) s = .next ((s.taken f).replied 0x10 f .slotInUse []))
    ∧ (s.writeAccepted f.body → 2048 ≤ (word16At f.body 0).toNat → word16At f.body 0 ≠ 0xFFFF →
        exec (.stepWrite f) s = .next ((s.taken f).replied 0x10 f .noSuchStep []))
    ∧ (s.writeAccepted f.body → word16At f.body 0 = 0xFFFF → (∀ k, s.recordAt k ≠ none) →
        exec (.stepWrite f) s = .next ((s.taken f).replied 0x10 f .tableFull []))
    ∧ (∀ st, f.body.length ≤ 60 → FirstFailing (s.writeCheck f.body) st →
        exec (.stepWrite f) s = .next ((s.taken f).replied 0x10 f st []))
    ∧ (s.writeAccepted f.body ∨ ∃ st, FirstFailing (s.writeCheck f.body) st))
  ∧ (∀ body : List Byte, WriteRead body (readWrite body))
  ∧ StepStats.fresh =
      { offset := 0, learnCount := 0, lastVerdict := none, lastValue := none, lastDeviation := none, lastRange := none
        consecutiveFails := 0, failTotal := 0, lastRun := none, settleClamped := false }
  ∧ ∀ (s : State) (l : NailList), (s.anyRetired l = true ↔ ∃ n ∈ l.toList, (s.nailAt n).state = .retired)
      ∧ ∀ n, l.names n = true ↔ n ∈ l.toList

/-- An accepted STEP EDIT is applied at once to a READY or PARKED record, with the reference counts and the NAIL reason
following its nail list, and stored as the deferred edit of a HELD record without retire pending (R14, R16, R17). A body too
short for slot and mask, then a slot that takes no edit, then the first check of R15 that fails decides the refusal (R10, R15).
The body is read at the offsets of section 10.3. That an edit of a READY record with an empty mask is a dispatch opportunity
too is the model's reading (log 13), and that the report comes before the test of the run's end is its choice (log 22). -/
def Obligations.StepEditAppliesOrDefers : Prop :=
  (∀ (s : State) (f : RequestFrame) (k : Slot) (r : StepRecord), s.takes → f.body.length ≤ 60 →
    (word16At f.body 0).toNat = k.val → s.recordAt k = some r → s.editAccepted f.body r.program.kind →
    (∀ p d, r.status = .held p d false →
      ∃ t, exec (.stepEdit f) s = .next t
        ∧ t.slotAt k =
            { s.slotAt k with
              record := some { r with status := .held p (some (readEdit f.body).edit) false } }
        ∧ OtherSlotsSame s t k ∧ t.nails = s.nails
        ∧ t.port = .replying { code := 0x11, tag := f.tag, status := .deferred
                               body := bytesOf16 k.val ++ [2, byteOf p.toNat] }
        ∧ t.exam = s.exam ∧ t.run = s.run ∧ t.latches = s.latches ∧ SameLinks s t ∧ SameSettings s t)
    ∧ (r.status.isHeld = false → r.program.nails.toList.Nodup →
      ∃ t u, exec (.stepEdit f) s = .next t
        ∧ t.slotAt k = { s.slotAt k with record := some u }
        ∧ GroupsReplaced (readEdit f.body) r u
        ∧ u.status =
            (if (readEdit f.body).hasNails then
              (if r.status.reasons.requested || s.anyRetired u.program.nails then
                .parked { requested := r.status.reasons.requested, nail := s.anyRetired u.program.nails }
              else .ready)
            else r.status)
        ∧ OtherSlotsSame s t k
        ∧ RefsBecome s t (fun n =>
            (s.nailAt n).refCount - (if r.program.nails.names n && !u.program.nails.names n then 1 else 0)
              + (if u.program.nails.names n && !r.program.nails.names n then 1 else 0))
        ∧ t.port = .replying { code := 0x11, tag := f.tag, status := .ok, body := bytesOf16 k.val ++ (match u.status with
                                | .parked p => [3, byteOf (p.requested.toNat + 2 * p.nail.toNat)]
                                | _ => [1, 0]) }
        ∧ t.exam = examAfter (decide (r.status = .ready) || decide (u.status = .ready)) s.run.state s.exam
        ∧ RunEndTested s.run s.latches t ∧ SameLinks s t ∧ SameSettings s t))
  ∧ (∀ (s : State) (f : RequestFrame), s.takes → f.body.length ≤ 60 →
    (f.body.length < 3 → exec (.stepEdit f) s = .next ((s.taken f).replied 0x11 f .badLength []))
    ∧ (3 ≤ f.body.length →
        (∀ k : Slot, (word16At f.body 0).toNat = k.val →
          s.recordAt k = none ∨ ∃ r p d, s.recordAt k = some r ∧ r.status = .held p d true) →
        exec (.stepEdit f) s = .next ((s.taken f).replied 0x11 f .noSuchStep []))
    ∧ (∀ (k : Slot) (r : StepRecord) (st : Status), 3 ≤ f.body.length → (word16At f.body 0).toNat = k.val →
        s.recordAt k = some r → (∀ p d, r.status ≠ .held p d true) →
        FirstFailing (s.editCheck f.body r.program.kind) st →
        exec (.stepEdit f) s = .next ((s.taken f).replied 0x11 f st [])))
  ∧ (∀ body : List Byte, EditRead body (readEdit body)
    ∧ ∀ r : StepRecord, GroupsReplaced (readEdit body) r (r.edited (readEdit body).edit)
      ∧ (r.edited (readEdit body).edit).status = r.status)
  ∧ ∀ st : StepStatus, (st.isHeld = true ↔ ∃ p d q, st = .held p d q)
      ∧ (∀ p, st = .parked p → st.reasons = p)
      ∧ ((∀ p, st ≠ .parked p) → st.reasons = { requested := false, nail := false })

/-- STEP PARK and STEP UNPARK by the state of the record (R19, R20); FREE and retiring records and slots above 2047 are
refused (R10). -/
def Obligations.StepParkAndUnparkByState : Prop :=
  (∀ (s : State) (f : RequestFrame) (k : Slot), s.takes → f.body.length = 2 → (word16At f.body 0).toNat = k.val →
    (∀ r, s.recordAt k = some r → r.status = .ready →
      (∃ t, exec (.stepPark f) s = .next t
        ∧ t.slotAt k =
            { s.slotAt k with record := some { r with status := .parked { requested := true, nail := false } } }
        ∧ OtherSlotsSame s t k ∧ t.nails = s.nails ∧ t.exam = s.exam
        ∧ RunEndTested s.run s.latches t ∧ SameLinks s t ∧ SameSettings s t
        ∧ t.port = .replying { code := 0x13, tag := f.tag, status := .ok, body := bytesOf16 k.val ++ [3, 1] })
      ∧ exec (.stepUnpark f) s = .next ((s.taken f).replied 0x14 f .ok (bytesOf16 k.val ++ [1, 0])))
    ∧ (∀ r p, s.recordAt k = some r → r.status = .parked p →
      exec (.stepPark f) s = .next
        (((s.taken f).setRecord k { r with status := .parked { requested := true, nail := p.nail } }).replied 0x13 f .ok
          (bytesOf16 k.val ++ [3, byteOf (1 + 2 * p.nail.toNat)]))
      ∧ (p.requested = true →
          ∃ t, exec (.stepUnpark f) s = .next t
            ∧ t.slotAt k =
                { s.slotAt k with
                  record := some
                    { r with status := if p.nail then .parked { requested := false, nail := true } else .ready } }
            ∧ OtherSlotsSame s t k ∧ t.nails = s.nails ∧ t.run = s.run ∧ t.latches = s.latches
            ∧ t.exam = examAfter (!p.nail) s.run.state s.exam ∧ SameLinks s t ∧ SameSettings s t
            ∧ t.port = .replying
                { code := 0x14, tag := f.tag, status := .ok
                  body := bytesOf16 k.val ++ (if p.nail then [3, 2] else [1, 0]) })
      ∧ (p = { requested := false, nail := true } →
          exec (.stepUnpark f) s = .next ((s.taken f).replied 0x14 f .nailRetired [])))
    ∧ (∀ r p d, s.recordAt k = some r → r.status = .held p d false →
      exec (.stepPark f) s = .next (((s.taken f).setRecord k { r with status := .held true d false }).replied 0x13 f
          .deferred (bytesOf16 k.val ++ [2, 1]))
      ∧ exec (.stepUnpark f) s = .next (((s.taken f).setRecord k { r with status := .held false d false }).replied 0x14 f
          .ok (bytesOf16 k.val ++ [2, 0])))
    ∧ ((s.recordAt k = none ∨ ∃ r p d, s.recordAt k = some r ∧ r.status = .held p d true) →
      exec (.stepPark f) s = .next ((s.taken f).replied 0x13 f .noSuchStep [])
      ∧ exec (.stepUnpark f) s = .next ((s.taken f).replied 0x14 f .noSuchStep [])))
  ∧ ∀ (s : State) (f : RequestFrame), s.takes → f.body.length = 2 → 2048 ≤ (word16At f.body 0).toNat →
    exec (.stepPark f) s = .next ((s.taken f).replied 0x13 f .noSuchStep [])
    ∧ exec (.stepUnpark f) s = .next ((s.taken f).replied 0x14 f .noSuchStep [])

/-- STEP RETIRE frees a READY or PARKED record at once and sets retire pending on a HELD one, discarding its deferred edit and
pending park; FREE and retiring records and slots above 2047 are refused (R9, R10, R21, R22). -/
def Obligations.StepRetireFreesOrPends : Prop :=
  (∀ (s : State) (f : RequestFrame) (k : Slot) (r : StepRecord), s.takes → f.body.length = 2 →
    (word16At f.body 0).toNat = k.val → s.recordAt k = some r →
    (r.status.isHeld = false → r.program.nails.toList.Nodup →
      ∃ t, exec (.stepRetire f) s = .next t
        ∧ t.slotAt k = { runMark := (s.slotAt k).runMark, record := none }
        ∧ OtherSlotsSame s t k
        ∧ RefsBecome s t (fun n => (s.nailAt n).refCount - (if r.program.nails.names n then 1 else 0))
        ∧ t.exam = s.exam ∧ RunEndTested s.run s.latches t ∧ SameLinks s t ∧ SameSettings s t
        ∧ t.port = .replying { code := 0x15, tag := f.tag, status := .ok, body := bytesOf16 k.val ++ [0, 0] })
    ∧ (∀ p d, r.status = .held p d false →
      exec (.stepRetire f) s = .next (((s.taken f).setRecord k { r with status := .held false none true }).replied 0x15 f
        .deferred (bytesOf16 k.val ++ [2, 0])))
    ∧ (∀ p d, r.status = .held p d true → exec (.stepRetire f) s = .next ((s.taken f).replied 0x15 f .noSuchStep [])))
  ∧ ∀ (s : State) (f : RequestFrame), s.takes → f.body.length = 2 →
    (∀ k : Slot, (word16At f.body 0).toNat = k.val → s.recordAt k = none) →
    exec (.stepRetire f) s = .next ((s.taken f).replied 0x15 f .noSuchStep [])

/-- STEP SCAN and NAIL LOOKUP begin a walk at their start slot, and each visit tests one slot as it stands and goes on to the
next, until 32 slots are collected or slot 2047 has been visited; then the reply is placed (R27, R44). A slot matches a filter
by its verdict set, state set and current-run part (R26), and a lookup by the role in which its record names the nail (R44). A
start slot above 2047 and a nail above 4095 are refused. -/
def Obligations.WalksVisitSlotsInOrder : Prop :=
  (∀ (s : State) (f : RequestFrame), s.takes →
    (∀ k : Slot, f.body.length = 6 → (word16At f.body 0).toNat = k.val →
      exec (.stepScan f) s = .next
        { s.taken f with
          port := .holding { code := 0x16, tag := f.tag, body := f.body }
            (.scan { verdicts := (word16At f.body 2).extractLsb' 0 12, states := (byteAt f.body 4).extractLsb' 0 4,
                     currentRun := (byteAt f.body 5).getLsbD 0 } k []) })
    ∧ (∀ (n : NailNo) (k : Slot), f.body.length = 4 → (word16At f.body 0).toNat = n.val → (word16At f.body 2).toNat = k.val →
      exec (.nailLookup f) s = .next
        { s.taken f with port := .holding { code := 0x21, tag := f.tag, body := f.body } (.lookup n k []) })
    ∧ (f.body.length = 6 → 2048 ≤ (word16At f.body 0).toNat →
      exec (.stepScan f) s = .next ((s.taken f).replied 0x16 f .noSuchStep []))
    ∧ (f.body.length = 4 → 4096 ≤ (word16At f.body 0).toNat →
      exec (.nailLookup f) s = .next ((s.taken f).replied 0x21 f .badNail []))
    ∧ (f.body.length = 4 → (word16At f.body 0).toNat < 4096 → 2048 ≤ (word16At f.body 2).toNat →
      exec (.nailLookup f) s = .next ((s.taken f).replied 0x21 f .noSuchStep [])))
  ∧ (∀ (s : State) (q : Request) (f : ScanFilter) (k : Slot) (found : List Slot), s.port = .holding q (.scan f k found) →
    let found' := found ++ (if f.selects s.run.number (s.slotAt k) then [k] else [])
    (∀ next : Slot, next.val = k.val + 1 → found'.length < 32 →
      exec .stepScanVisit s = .next { s with port := .holding q (.scan f next found') })
    ∧ (k.val = 2047 ∨ 32 ≤ found'.length →
      exec .stepScanVisit s = .next (s.placeReply
        { code := q.code, tag := q.tag, status := .ok
          body := [byteOf found'.length]
            ++ (if 32 ≤ found'.length ∧ k.val < 2047 then bytesOf16 (k.val + 1) else [0xFF, 0xFF])
            ++ found'.flatMap (fun j => bytesOf16 j.val) })))
  ∧ (∀ (s : State) (q : Request) (n : NailNo) (k : Slot) (found : List (Slot × Role)),
    s.port = .holding q (.lookup n k found) →
    let found' := found ++ (match (s.slotAt k).roleOf n with
      | none => []
      | some role => [(k, role)])
    (∀ next : Slot, next.val = k.val + 1 → found'.length < 32 →
      exec .nailLookupVisit s = .next { s with port := .holding q (.lookup n next found') })
    ∧ (k.val = 2047 ∨ 32 ≤ found'.length →
      exec .nailLookupVisit s = .next (s.placeReply
        { code := q.code, tag := q.tag, status := .ok
          body := bytesOf16 (s.nailAt n).refCount ++ [byteOf found'.length]
            ++ (if 32 ≤ found'.length ∧ k.val < 2047 then bytesOf16 (k.val + 1) else [0xFF, 0xFF])
            ++ found'.flatMap (fun e => bytesOf16 e.1.val ++ [byteOf e.2.code]) })))
  ∧ (∀ (f : ScanFilter) (run : BitVec 16) (slot : StepSlot), f.selects run slot = true ↔
      (f.verdicts ≠ 0 → ∃ r, slot.record = some r ∧ f.verdicts.getLsbD (verdictCode r.stats.lastVerdict) = true)
      ∧ (if f.states = 0 then slot.record ≠ none else f.states.getLsbD (stateCodeOf slot.record) = true)
      ∧ (f.currentRun = true → ∃ r, slot.record = some r ∧ r.stats.lastRun = some run))
  ∧ ∀ (slot : StepSlot) (n : NailNo),
    (slot.roleOf n = none ↔ ∀ r, slot.record = some r → n ∉ r.program.nails.toList)
    ∧ ∀ role, slot.roleOf n = some role → ∃ r, slot.record = some r ∧ (role, n) ∈ r.program.nails.entries

/-! ## The Nail Map -/

/-- NAIL RETIRE parks every record that names the nail and is not HELD; NAIL RESTORE returns the nail to SERVICE and lifts the
NAIL reason from the records that name no other RETIRED nail; both report how many records changed (R33, R45, R46). A record
gains the reason when it is READY, or PARKED without it, and names the nail; it loses it when it is PARKED with it, names the
nail and now names no RETIRED nail, and is then READY, or PARKED with REQUESTED. A nail above 4095 is refused (R42). -/
def Obligations.NailRetireAndRestoreMoveRecords : Prop :=
  (∀ (s : State) (f : RequestFrame) (n : NailNo), s.takes → s.canonical = true → f.body.length = 2 →
    (word16At f.body 0).toNat = n.val →
    ((s.nailAt n).state ≠ .retired →
      ∃ t, exec (.nailRetire f) s = .next t
        ∧ t.nailAt n = { s.nailAt n with state := .retired } ∧ (∀ m, m ≠ n → t.nailAt m = s.nailAt m)
        ∧ (∀ k, (∀ r, (s.slotAt k).record = some r → r.status.isHeld = false → r.program.nails.names n = true →
              t.slotAt k =
                { s.slotAt k with
                  record := some { r with status := .parked { requested := r.status.reasons.requested, nail := true } } })
            ∧ ((∀ r, (s.slotAt k).record = some r → r.status.isHeld = true ∨ r.program.nails.names n = false) →
                t.slotAt k = s.slotAt k))
        ∧ t.exam = s.exam ∧ RunEndTested s.run s.latches t ∧ SameLinks s t ∧ SameSettings s t
        ∧ t.port = .replying
            { code := 0x22, tag := f.tag, status := .ok
              body := nailEntryBody n (t.nailAt n) ++ bytesOf16 (s.steps.filter (fun e => e.2.gainsNail n)).length })
    ∧ ((s.nailAt n).state = .retired →
      exec (.nailRetire f) s = .next ((s.taken f).replied 0x22 f .ok (nailEntryBody n (s.nailAt n) ++ [0, 0])))
    ∧ ((s.nailAt n).state ≠ .service →
      ∃ t, exec (.nailRestore f) s = .next t
        ∧ t.nailAt n = { s.nailAt n with state := .service, contactFails := 0 }
        ∧ (∀ m, m ≠ n → t.nailAt m = s.nailAt m)
        ∧ (∀ k, t.slotAt k =
            (if (s.nailAt n).state = .retired ∧ t.losesNail n (s.slotAt k) = true then (s.slotAt k).withoutNailReason
            else s.slotAt k))
        ∧ t.exam = examAfter true s.run.state s.exam ∧ t.run = s.run ∧ t.latches = s.latches ∧ SameLinks s t
        ∧ SameSettings s t
        ∧ t.port = .replying
            { code := 0x23, tag := f.tag, status := .ok
              body := nailEntryBody n (t.nailAt n) ++ bytesOf16
                (if (s.nailAt n).state = .retired then (s.steps.filter (fun e => t.losesNail n e.2)).length else 0) })
    ∧ ((s.nailAt n).state = .service →
      exec (.nailRestore f) s = .next ((s.taken f).replied 0x23 f .ok (nailEntryBody n (s.nailAt n) ++ [0, 0]))))
  ∧ (∀ (s : State) (f : RequestFrame), s.takes → f.body.length = 2 → 4096 ≤ (word16At f.body 0).toNat →
    exec (.nailRetire f) s = .next ((s.taken f).replied 0x22 f .badNail [])
    ∧ exec (.nailRestore f) s = .next ((s.taken f).replied 0x23 f .badNail []))
  ∧ ∀ (slot : StepSlot) (n : NailNo),
    (slot.gainsNail n = true ↔ ∃ r, slot.record = some r ∧ n ∈ r.program.nails.toList
      ∧ (r.status = .ready ∨ ∃ p : ParkReasons, r.status = .parked p ∧ p.nail = false))
    ∧ (∀ t : State, t.losesNail n slot = true ↔ ∃ (r : StepRecord) (p : ParkReasons), slot.record = some r
      ∧ r.status = .parked p ∧ p.nail = true ∧ n ∈ r.program.nails.toList
      ∧ ∀ m ∈ r.program.nails.toList, (t.nailAt m).state ≠ .retired)
    ∧ ∀ (r : StepRecord) (p : ParkReasons), slot.record = some r → r.status = .parked p →
      slot.withoutNailReason =
        { slot with
          record := some { r with status := if p.requested then .parked { requested := true, nail := false } else .ready } }

/-- NAIL COMMON sets and clears the common mark of an unbound nail, by the checks of R47 in their order and by R48; a nail
above 4095 is refused before them (R42). A nail is bound when a lane stands in its bindings (R35), and a record places it high
when the record, or its stored deferred edit, names it in SRC_HI or SNS_HI (R47). -/
def Obligations.NailCommonFollowsItsChecks : Prop :=
  (∀ (s : State) (f : RequestFrame) (n : NailNo), s.takes → f.body.length = 3 → (word16At f.body 0).toNat = n.val →
    let e := s.nailAt n
    ((byteAt f.body 2).getLsbD 0 = true →
      (e.common = true →
        exec (.nailCommonSet f) s = .next ((s.taken f).replied 0x24 f .ok (nailEntryBody n e)))
      ∧ (e.common = false → (e.isBound = true ∨ e.state = .suspect) →
        exec (.nailCommonSet f) s = .next ((s.taken f).replied 0x24 f .nailInUse []))
      ∧ (e.common = false → e.isBound = false → e.state ≠ .suspect → (∃ x ∈ s.steps, x.2.placesHigh n = true) →
        exec (.nailCommonSet f) s = .next ((s.taken f).replied 0x24 f .badRole []))
      ∧ (e.common = false → e.isBound = false → e.state ≠ .suspect → (∀ x ∈ s.steps, x.2.placesHigh n = false) →
        exec (.nailCommonSet f) s = .next (((s.taken f).setNail n { e with common := true }).replied 0x24 f .ok
          (nailEntryBody n { e with common := true }))))
    ∧ ((byteAt f.body 2).getLsbD 0 = false →
      (e.common = false →
        exec (.nailCommonClear f) s = .next ((s.taken f).replied 0x24 f .ok (nailEntryBody n e)))
      ∧ (e.common = true → e.isBound = true →
        exec (.nailCommonClear f) s = .next ((s.taken f).replied 0x24 f .nailInUse []))
      ∧ (e.common = true → e.isBound = false →
        exec (.nailCommonClear f) s = .next (((s.taken f).setNail n { e with common := false }).replied 0x24 f .ok
          (nailEntryBody n { e with common := false })))))
  ∧ (∀ (s : State) (f : RequestFrame), s.takes → f.body.length = 3 → 4096 ≤ (word16At f.body 0).toNat →
    exec (.nailCommonSet f) s = .next ((s.taken f).replied 0x24 f .badNail [])
    ∧ exec (.nailCommonClear f) s = .next ((s.taken f).replied 0x24 f .badNail []))
  ∧ (∀ e : NailEntry, e.isBound = true ↔ ∃ l : LaneNo, e.bindings[l] ≠ none)
  ∧ ∀ n : NailNo,
    (∀ slot : StepSlot, slot.placesHigh n = true ↔ ∃ r, slot.record = some r
      ∧ (r.program.nails.srcHi = n ∨ r.program.nails.snsHi = some n
        ∨ ∃ p e q l, r.status = .held p (some e) q ∧ e.nails = some l ∧ (l.srcHi = n ∨ l.snsHi = some n)))
    ∧ ∀ s : State, s.canonical = true →
      ((∃ x ∈ s.steps, x.2.placesHigh n = true) ↔ ∃ k, (s.slotAt k).placesHigh n = true)

/-! ## Timebase and settle arithmetic -/

/-- A conversion is the least whole number of ticks not shorter than the time; a settle is the sum of its parts, limited to
16,777,215 with the flag set; the settle class gives its time constants by the table of R56; and the sums stay within the
bounds of R61 (R49, R53, R56 to R59). -/
def Obligations.SettleTicksAreExact : Prop :=
  (∀ u T : Nat, 0 < T → u * 1000000 ≤ microTicks u T * T ∧ (∀ n, u * 1000000 ≤ n * T → microTicks u T ≤ n)
    ∧ ∀ v, v ≤ u → microTicks v T ≤ microTicks u T)
  ∧ (∀ (t : Timing) (r T : Nat), 0 < T →
    let tau := 10 ^ (r + 1) * t.capacitance.toNat
    timeConstants t.settleClass * tau ≤ rcTicks t r T * T
    ∧ (∀ n, timeConstants t.settleClass * tau ≤ n * T → rcTicks t r T ≤ n)
    ∧ (∀ operate, firstSettle t operate T =
        let sum := microTicks operate T + rcTicks t t.baseRange.val T + t.extraSettle.toNat
        (min 16777215 sum, decide (16777215 ≤ sum)))
    ∧ retrySettle t r T =
        (min 16777215 (rcTicks t r T + t.extraSettle.toNat), decide (16777215 ≤ rcTicks t r T + t.extraSettle.toNat)))
  ∧ (∀ b : Timebase, b.tickLength = 31250 * (b.prescale.toNat + 7) * (b.divisor.toNat + 1)
    ∧ 218750 ≤ b.tickLength ∧ b.tickLength ≤ 1408000000
    ∧ ∀ (t : Timing) (r operate : Nat), r ≤ 6 → operate ≤ 255 → rcTicks t r b.tickLength ≤ 862827429
      ∧ microTicks operate b.tickLength ≤ 1166
      ∧ microTicks operate b.tickLength + rcTicks t r b.tickLength + t.extraSettle.toNat ≤ 862894130)
  ∧ ([0, 1, 2, 3, 4, 5, 6, 7] : List (BitVec 3)).map timeConstants = [0, 3, 5, 7, 9, 11, 14, 18]
  ∧ ∀ s : State, s.tick = s.timebase.tickLength

/-! ## Judging and learning -/

/-- A MEASURE record in ABSOLUTE mode passes exactly the values from lo to hi (R140). -/
def Obligations.AbsoluteJudgmentIsInclusive : Prop :=
  ∀ (lo hi v : BitVec 24) (range : Nat), lo.toInt ≤ hi.toInt →
    let w := judgeValue .measure (.absolute lo hi) v range
    (w.verdict = .failLow ↔ v.toInt < lo.toInt) ∧ (w.verdict = .failHigh ↔ hi.toInt < v.toInt)
    ∧ (w.verdict = .pass ↔ lo.toInt ≤ v.toInt ∧ v.toInt ≤ hi.toInt)
    ∧ w.value = some v ∧ w.range = some range ∧ w.deviation = none

/-- A MEASURE record in RELATIVE mode passes exactly the values whose thousandfold lies between the exact bounds (R142); its
deviation is the quotient rounded half away from zero and clamped (R143). -/
def Obligations.RelativeJudgmentIsExact : Prop :=
  ∀ (nominal v : BitVec 24) (tolLo tolHi : BitVec 16) (range : Nat), 0 < nominal.toInt → tolLo.toNat ≤ 1000 →
    let w := judgeValue .measure (.relative nominal tolLo tolHi) v range
    let lower := nominal.toInt * (1000 - tolLo.toNat)
    let upper := nominal.toInt * (1000 + tolHi.toNat)
    (w.verdict = .failLow ↔ 1000 * v.toInt < lower) ∧ (w.verdict = .failHigh ↔ upper < 1000 * v.toInt)
    ∧ (w.verdict = .pass ↔ lower ≤ 1000 * v.toInt ∧ 1000 * v.toInt ≤ upper)
    ∧ w.value = some v ∧ w.range = some range
    ∧ ∃ (d : BitVec 16) (q : Int), w.deviation = some d ∧ d.toInt = max (-32768) (min 32767 q)
      ∧ 2 * ((v.toInt - nominal.toInt) * 1000 - q * nominal.toInt).natAbs ≤ nominal.toInt.natAbs
      ∧ (2 * ((v.toInt - nominal.toInt) * 1000 - q * nominal.toInt).natAbs = nominal.toInt.natAbs →
          ((v.toInt - nominal.toInt) * 1000).natAbs ≤ (q * nominal.toInt).natAbs)

/-- Scaling and compensation are exact and saturated; the learn update truncates toward zero and lands between the offset and
the reading (R138, R139, R145). -/
def Obligations.ReadingArithmeticIsExact : Prop :=
  (∀ (a : BitVec 24) (j : Nat), (scaleCount a j).toInt = max (-8388608) (min 8388607 (a.toInt * 10 ^ j)))
  ∧ (∀ s o : BitVec 24, (compensate s o).toInt = max (-8388608) (min 8388607 (s.toInt - o.toInt)))
  ∧ (∀ (o s : BitVec 24) (w : Nat),
    (learnOffset o s w).toInt = o.toInt + (s.toInt - o.toInt).tdiv (2 ^ w)
    ∧ min o.toInt s.toInt ≤ (learnOffset o s w).toInt ∧ (learnOffset o s w).toInt ≤ max o.toInt s.toInt)

/-- The stages of a judgment in their order: fault, overrange, then learning or judging (R136, R137, R141, R145). -/
def Obligations.JudgmentStagesInOrder : Prop :=
  ∀ (mode : RunMode) (weight : Nat) (r : StepRecord) (x : Reading),
    (x.fault = true → judge mode weight r x = .verdict (VerdictWrite.bare .converterFault (some x.rangeUsed)))
    ∧ (x.fault = false → x.overrange = true → r.program.kind = .contact →
      judge mode weight r x = .verdict (VerdictWrite.bare .noContact (some x.rangeUsed)))
    ∧ (x.fault = false → x.overrange = true → r.program.kind = .measure →
      (x.retriesUsed < r.program.retryAllowance.val → x.rangeUsed < 6 → judge mode weight r x = .retry)
      ∧ ((r.program.retryAllowance.val ≤ x.retriesUsed ∨ 6 ≤ x.rangeUsed) →
        judge mode weight r x = .verdict (VerdictWrite.bare .overrange (some x.rangeUsed))))
    ∧ (x.fault = false → x.overrange = false →
      let s := scaleCount x.count (x.rangeUsed - r.program.timing.baseRange.val)
      (mode = .learn → r.program.kind = .measure → judge mode weight r x = .verdict
        { verdict := .learned, value := some s, deviation := none, range := some x.rangeUsed
          learnedOffset := some (learnOffset r.stats.offset s weight) })
      ∧ ((mode ≠ .learn ∨ r.program.kind = .contact) → judge mode weight r x = .verdict
        (judgeValue r.program.kind r.program.limits (compensate s r.stats.offset) x.rangeUsed)))
    ∧ (∀ lo hi v range, judgeValue .contact (.absolute lo hi) v range =
        { verdict := if v.toInt ≤ hi.toInt then .pass else .noContact, value := some v, deviation := none
          range := some range, learnedOffset := none })

/-- What a verdict does to consecutive fails and fail total (R148). -/
def Obligations.StatisticsFollowVerdict : Prop :=
  ∀ (st : StepStats) (mode : RunMode) (number : BitVec 16) (w : VerdictWrite),
    let u := st.afterVerdict mode number w
    (w.verdict = .pass → u.consecutiveFails = 0 ∧ u.failTotal = st.failTotal)
    ∧ ((w.verdict = .failLow ∨ w.verdict = .failHigh ∨ w.verdict = .noContact ∨ (w.verdict = .overrange ∧ mode = .test)) →
      u.consecutiveFails.toNat = min 255 (st.consecutiveFails.toNat + 1)
      ∧ u.failTotal.toNat = min 65535 (st.failTotal.toNat + 1))
    ∧ ((w.verdict = .overrange ∧ mode = .learn) ∨ w.verdict = .learned ∨ w.verdict = .skipCard ∨ w.verdict = .skipNail
        ∨ w.verdict = .matrixFault ∨ w.verdict = .converterFault ∨ w.verdict = .aborted →
      u.consecutiveFails = st.consecutiveFails ∧ u.failTotal = st.failTotal)

/-! ## Lanes and converter ports -/

/-- The expiry of a settle sends START with the range in use and the record's aperture, numbered one up, and starts the
converter timeout of aperture plus margin (R62, R115, R116). -/
def Obligations.SettleExpirySendsStart : Prop :=
  ∀ (s : State) (l : LaneNo) (m : Nat) (k : Slot) (r : StepRecord), (s.laneAt l).timer = some (.settle m) →
    s.heldBy l = some (k, r) →
    exec (.settleExpiry l) s = .next
      ((s.setPort l
        { startNumber := (s.portAt l).startNumber + 1, outstanding := some ((s.portAt l).startNumber + 1)
          sentStart := some { number := (s.portAt l).startNumber + 1, range := (s.laneAt l).rangeInUse
                              aperture := r.program.timing.aperture } }).setLane l
        { s.laneAt l with
          phase := .measuring
          timer := some (.converterTimeout (r.program.timing.aperture.toNat + s.settings.converterMargin.toNat)) })

/-- A RESULT that answers the outstanding START of a MEASURING lane and is given a verdict: the verdict is recorded and
counted, the outstanding START cleared, and the lane enters RELEASING (R118, R121, R122, R147). A verdict as written sets last
verdict and last run and the three value fields to what it carries, makes the learn update for LEARNED and leaves the
settle-clamped flag (R147); the contact fails saturate at 15 (R39). -/
def Obligations.ResultVerdictEndsStep : Prop :=
  (∀ (st : StepStats) (mode : RunMode) (number : BitVec 16) (w : VerdictWrite),
    let u := st.afterVerdict mode number w
    u.lastVerdict = some w.verdict ∧ u.lastRun = some number ∧ u.lastValue = w.value ∧ u.lastDeviation = w.deviation
      ∧ u.lastRange = w.range ∧ u.offset = w.learnedOffset.getD st.offset ∧ u.settleClamped = st.settleClamped
      ∧ u.learnCount.toNat = (if w.verdict = .learned then min 255 (st.learnCount.toNat + 1) else st.learnCount.toNat)) ∧
  (∀ (v : Verdict) (range : Option Nat), VerdictWrite.bare v range =
    { verdict := v, value := none, deviation := none, range := range, learnedOffset := none }) ∧
  (∀ (e : NailEntry) (threshold : BitVec 4),
    (contactNail threshold e .noContact).contactFails.toNat = min 15 (e.contactFails.toNat + 1)) ∧
  ∀ (s : State) (l : LaneNo) (number : Byte) (count : BitVec 24) (overrange fault : Bool) (k : Slot) (r : StepRecord)
    (w : VerdictWrite) (p : Nat) (bus : Role) (nail : NailNo), s.linkServed →
    (s.laneAt l).phase = .measuring → (s.portAt l).outstanding = some number → s.heldBy l = some (k, r) →
    judge s.run.summary.mode s.run.summary.weight.val r
      { count := count, overrange := overrange, fault := fault, rangeUsed := (s.laneAt l).rangeInUse
        retriesUsed := (s.laneAt l).retriesUsed } = .verdict w →
    (s.laneAt l).closedCount = p + 1 → r.program.nails.entries[p]? = some (bus, nail) → s.nailOnline nail = true →
    ∃ t, exec (.result l number count overrange fault) s = .next t ∧ StepEnded s t l (p + 1) k r w
      ∧ OutstandingCleared s t l ∧ OtherLanesSame s t l
      ∧ (s.link.inFlight = none → t.link.inFlight = some
          { requester := rankOfLane l, command := .openOne (cardOf nail) (crosspointOf nail) l bus, resent := false
            timer := s.settings.ackTimeout.toNat })
      ∧ (s.link.inFlight ≠ none → t.link = s.link)

/-- The expiry of a converter timeout ends the step with CONVERTER_FAULT and the range of the START that failed (R120,
R151). -/
def Obligations.ConverterTimeoutFaultsStep : Prop :=
  ∀ (s : State) (l : LaneNo) (m : Nat) (k : Slot) (r : StepRecord) (p : Nat) (bus : Role) (nail : NailNo), s.linkServed →
    (s.laneAt l).timer = some (.converterTimeout m) → s.heldBy l = some (k, r) →
    (s.laneAt l).closedCount = p + 1 → r.program.nails.entries[p]? = some (bus, nail) → s.nailOnline nail = true →
    ∃ t, exec (.converterTimeout l) s = .next t
      ∧ StepEnded s t l (p + 1) k r
          { verdict := .converterFault, value := none, deviation := none, range := some (s.laneAt l).rangeInUse
            learnedOffset := none }
      ∧ OutstandingCleared s t l ∧ OtherLanesSame s t l

/-- An overrange that may be retried: the lane settles again one range up, the summary's retries count rises, and nothing is
written into the record but the settle-clamped flag; a retry settle of 0 sends the next START at once (R119, R59, R60). -/
def Obligations.OverrangeRetriesAtCoarserRange : Prop :=
  ∀ (s : State) (l : LaneNo) (number : Byte) (count : BitVec 24) (k : Slot) (r : StepRecord),
    (s.laneAt l).phase = .measuring → (s.portAt l).outstanding = some number → s.heldBy l = some (k, r) →
    r.program.kind = .measure → (s.laneAt l).retriesUsed < r.program.retryAllowance.val → (s.laneAt l).rangeInUse < 6 →
    let settle := retrySettle r.program.timing ((s.laneAt l).rangeInUse + 1) s.tick
    ∃ t, exec (.result l number count true false) s = .next t
      ∧ t.slotAt k = { s.slotAt k with record := some { r with stats := { r.stats with settleClamped := settle.2 } } }
      ∧ OtherSlotsSame s t k ∧ t.nails = s.nails
      ∧ t.run = { s.run with summary := { s.run.summary with retries := s.run.summary.retries + 1 } }
      ∧ t.laneAt l =
          { s.laneAt l with
            rangeInUse := (s.laneAt l).rangeInUse + 1
            retriesUsed := (s.laneAt l).retriesUsed + 1
            phase := if settle.1 = 0 then .measuring else .settling
            timer := some (if settle.1 = 0 then
              .converterTimeout (r.program.timing.aperture.toNat + s.settings.converterMargin.toNat) else .settle settle.1) }
      ∧ (settle.1 ≠ 0 → OutstandingCleared s t l)
      ∧ (settle.1 = 0 → t.portAt l =
          { startNumber := (s.portAt l).startNumber + 1, outstanding := some ((s.portAt l).startNumber + 1)
            sentStart := some { number := (s.portAt l).startNumber + 1, range := (s.laneAt l).rangeInUse + 1
                                aperture := r.program.timing.aperture } })
      ∧ (∀ n, n ≠ l → t.portAt n = s.portAt n)
      ∧ OtherLanesSame s t l ∧ t.cards = s.cards ∧ t.link = s.link ∧ t.census = s.census ∧ t.latches = s.latches
      ∧ t.exam = s.exam ∧ SameSettings s t ∧ SamePort s t

/-- The end of a release wait: the lane's bindings are removed, its record resolved, the lane IDLE, an opportunity reported and
the run's end tested (R25, R38, R123). -/
def Obligations.ReleaseEndResolvesStep : Prop :=
  ∀ (s : State) (l : LaneNo) (m : Nat) (k : Slot) (r : StepRecord) (p : Bool) (d : Option StepEdit) (q : Bool),
    s.canonical = true → (s.laneAt l).timer = some (.releaseWait m) → (s.laneAt l).heldSlot = some k →
    s.recordAt k = some r → r.status = .held p d q →
    ∃ t, exec (.releaseWaitExpiry l) s = .next t
      ∧ (∀ n, (t.nailAt n).bindings = (s.nailAt n).bindings.set l.val none l.isLt
          ∧ (t.nailAt n).state = (s.nailAt n).state ∧ (t.nailAt n).common = (s.nailAt n).common
          ∧ (t.nailAt n).contactFails = (s.nailAt n).contactFails)
      ∧ t.slotAt k = resolvedSlot s (s.slotAt k).runMark r p d q ∧ OtherSlotsSame s t k
      ∧ (r.program.nails.toList.Nodup → (q = true →
          ∀ n, (t.nailAt n).refCount = (s.nailAt n).refCount - (if r.program.nails.names n then 1 else 0)))
      ∧ (q = false → (d = none ∨ ∃ e, d = some e ∧ e.nails = none) →
          ∀ n, (t.nailAt n).refCount = (s.nailAt n).refCount)
      ∧ (∀ e nails, q = false → d = some e → e.nails = some nails → r.program.nails.toList.Nodup → nails.toList.Nodup →
          ∀ n, (t.nailAt n).refCount =
            (s.nailAt n).refCount - (if r.program.nails.names n && !nails.names n then 1 else 0)
              + (if nails.names n && !r.program.nails.names n then 1 else 0))
      ∧ t.laneAt l = Lane.blank ∧ OtherLanesSame s t l
      ∧ t.exam = examAfter true s.run.state s.exam ∧ RunEndTested s.run s.latches t
      ∧ t.ports = s.ports ∧ t.cards = s.cards ∧ t.link = s.link ∧ t.census = s.census ∧ SameSettings s t ∧ SamePort s t

/-- Answers the part cannot use: a RESULT that answers no START its lane waits for is discarded with LATE_RESULT, a damaged
frame without; an answer on the link that does not answer the command in flight changes nothing (R117, R163). -/
def Obligations.UnusableAnswersAreDiscarded : Prop :=
  (∀ c : LinkCommand, c.isIdentify = true ↔ ∃ d, c = .identify d) ∧
  (∀ (c : CardNo) (x : Byte) (l : LaneNo) (bus : Role), (LinkCommand.close c x l bus).card = c
    ∧ (LinkCommand.openOne c x l bus).card = c ∧ (LinkCommand.openAll c).card = c ∧ (LinkCommand.identify c).card = c) ∧
  ∀ s : State,
    (∀ l number count overrange fault,
      ((s.laneAt l).phase ≠ .measuring ∨ (s.portAt l).outstanding ≠ some number) →
      exec (.result l number count overrange fault) s = .next (s.latch .lateResult))
    ∧ (∀ l, exec (.damagedResultFrame l) s = .next s)
    ∧ exec (.strayAnswer .damaged) s = .next s
    ∧ (∀ c, (∀ f, s.link.inFlight = some f → f.command.isIdentify = true ∨ f.command.card ≠ c) →
        exec (.strayAnswer (.acknowledgement c)) s = .next s ∧ exec (.acknowledgement c) s = .next s)
    ∧ (∀ c cardType operate release check,
        (∀ f, s.link.inFlight = some f → f.command.isIdentify = false ∨ f.command.card ≠ c) →
        exec (.strayAnswer (.descriptor c cardType operate release check)) s = .next s
        ∧ exec (.descriptor c cardType operate release check) s = .next s)
    ∧ (∀ c, (∀ f, s.link.inFlight = some f → f.command.card ≠ c) →
        exec (.strayAnswer (.parity c)) s = .next s ∧ exec (.parity c) s = .next s)

/-! ## The Matrix Link and the census -/

/-- The arbiter grants the first waiting requester after the rank last granted, one command at a time (R159): a lane's command
to an ONLINE card, or the census engine's, is sent. A lane's command to a card that is not ONLINE is not sent: it fails at
once, and in the same event the next waiting requester is granted, counting from the rank just served (R160). Ranks 0 to 3
are the lanes and rank 4 is the census engine. A lane's command is the CLOSE of the nail at its closed count, or the OPEN of
the nail at its open position, on the bus of the nail's role, in the order of the list (R3, R112, R122). -/
def Obligations.GrantGoesToNextWaitingRank : Prop :=
  (∀ l : NailList, l.entries = [(.srcHi, l.srcHi), (.srcLo, l.srcLo)] ++ l.snsHi.toList.map (fun n => (Role.snsHi, n))
      ++ l.snsLo.toList.map (fun n => (Role.snsLo, n)) ++ l.guards.map (fun n => (Role.guard, n))
    ∧ l.toList = l.entries.map Prod.snd) ∧
  (∀ n : NailNo, (cardOf n).val = n.val / 256 ∧ (crosspointOf n).toNat = n.val % 256) ∧
  ∀ s : State,
    (∀ l k r, s.heldBy l = some (k, r) ↔ (s.laneAt l).heldSlot = some k ∧ s.recordAt k = some r) ∧
    (∀ n, s.nailOnline n = true ↔ (s.cardAt (cardOf n)).state = .online) ∧
    (∀ l, (rankOfLane l).val = l.val ∧ (s.waits (rankOfLane l) = true ↔ (s.laneAt l).linkRequest = .waiting)) ∧
    (s.waits 4 = true ↔ ∃ x, s.census = some x ∧ x.request = .waiting) ∧
    (∀ l k r, s.heldBy l = some (k, r) →
      ((s.laneAt l).phase = .closing → s.laneCommand l = (r.program.nails.entries[(s.laneAt l).closedCount]?).map
        (fun e => .close (cardOf e.2) (crosspointOf e.2) l e.1))
      ∧ ((s.laneAt l).phase = .releasing → s.laneCommand l = (r.program.nails.entries[(s.laneAt l).openPosition - 1]?).map
        (fun e => .openOne (cardOf e.2) (crosspointOf e.2) l e.1))) ∧
    (s.link.inFlight ≠ none → s.arbitrate = s)
    ∧ ((∀ r, s.waits r = false) → s.arbitrate = s)
    ∧ ((∃ r, s.waits r = true) → ∃ r, s.servedNext r)
    ∧ (∀ l c, s.link.inFlight = none → s.servedNext (rankOfLane l) → s.laneCommand l = some c →
        ((s.cardAt c.card).state = .online →
          s.arbitrate =
            { s.setLane l { s.laneAt l with linkRequest := .inFlight } with link := s.linkSending (rankOfLane l) c })
        ∧ ((s.cardAt c.card).state ≠ .online → s.heldMatches →
          s.arbitrate =
            (({ s with link := { s.link with lastGranted := rankOfLane l } } : State).laneCommandFailed l).arbitrate))
    ∧ (∀ l k r, s.canonical = true → s.heldBy l = some (k, r) →
        ((s.laneAt l).phase = .closing → StepEndedBy s (s.laneCommandFailed l) l
            (((s.laneAt l).pendingEnd.map PendingEnd.verdict).getD .matrixFault)
          ∧ OtherLanesSame s (s.laneCommandFailed l) l)
        ∧ ((s.laneAt l).phase = .releasing → SlotHeldOrResolved s (s.laneCommandFailed l) l k (s.slotAt k).runMark r
          ∧ OpeningFrom (s.laneCommandFailed l) l r.program.nails.entries ((s.laneAt l).openPosition - 1) (s.laneAt l)
          ∧ OtherLanesSame s (s.laneCommandFailed l) l))
    ∧ (∀ x, s.link.inFlight = none → s.servedNext 4 → s.census = some x →
        s.arbitrate =
          { s with
            link := s.linkSending 4 (match x.stage with
              | .identify => .identify x.current
              | .openAll => .openAll x.current)
            census := some { x with request := .inFlight } })
    ∧ (∀ f l, s.link.inFlight = none → s.arbitrate.link.inFlight = some f → f.requester = rankOfLane l →
        (s.cardAt f.command.card).state = .online)

/-- The acknowledgement of a lane's CLOSE: the closed count rises, and the lane requests its next CLOSE, or computes its settle
and enters SETTLING, or ends its step by its pending end (R113, R55, R58). The CLOSE it requests is that of the next nail of
the list on the bus of its role (R112). The operate time of a settle is the largest among the cards of the list (R55), one
without a descriptor counting 0 (log 17). -/
def Obligations.CloseAcknowledgedAdvancesLane : Prop :=
  (PendingEnd.aborted.verdict = .aborted ∧ PendingEnd.matrixFault.verdict = .matrixFault) ∧
  (∀ (s : State) (nails : NailList),
    (∀ n ∈ nails.toList, ∀ d, (s.cardAt (cardOf n)).descriptor = some d → d.operate.toNat ≤ s.largestOperate nails)
    ∧ (s.largestOperate nails = 0
      ∨ ∃ n ∈ nails.toList, ∃ d, (s.cardAt (cardOf n)).descriptor = some d ∧ s.largestOperate nails = d.operate.toNat)) ∧
  ∀ (s : State) (l : LaneNo) (f : InFlight) (k : Slot) (r : StepRecord), s.link.inFlight = some f →
    f.requester = rankOfLane l → f.command.isIdentify = false → (s.laneAt l).phase = .closing →
    (s.laneAt l).linkRequest = .inFlight → s.heldBy l = some (k, r) → s.census = none → s.grantable = true →
    let closed := (s.laneAt l).closedCount + 1
    (∀ bus nail, (s.laneAt l).pendingEnd = none → r.program.nails.entries[closed]? = some (bus, nail) →
        s.nailOnline nail = true →
      ∃ t, exec (.acknowledgement f.command.card) s = .next t
        ∧ (∃ request, (request = .waiting ∨ request = .inFlight)
            ∧ t.laneAt l = { s.laneAt l with closedCount := closed, linkRequest := request })
        ∧ t.laneCommand l = some (.close (cardOf nail) (crosspointOf nail) l bus)
        ∧ (∀ g, t.link.inFlight = some g → g.requester = rankOfLane l →
            g.command = .close (cardOf nail) (crosspointOf nail) l bus)
        ∧ t.link.inFlight ≠ none ∧ OtherLanesSameButGrant s t l ∧ SameTables s t ∧ t.ports = s.ports ∧ t.cards = s.cards
        ∧ t.census = s.census ∧ t.run = s.run ∧ t.exam = s.exam ∧ t.latches = s.latches ∧ SameSettings s t ∧ SamePort s t)
    ∧ (let settle := firstSettle r.program.timing (s.largestOperate r.program.nails) s.tick
      (s.laneAt l).pendingEnd = none → closed = r.program.nails.entries.length → settle.1 ≠ 0 →
      ∃ t, exec (.acknowledgement f.command.card) s = .next t
        ∧ t.laneAt l =
            { s.laneAt l with
              closedCount := closed, linkRequest := .none, phase := .settling, timer := some (.settle settle.1) }
        ∧ t.slotAt k = { s.slotAt k with record := some { r with stats := { r.stats with settleClamped := settle.2 } } }
        ∧ OtherSlotsSame s t k ∧ t.nails = s.nails ∧ OtherLanesSameButGrant s t l ∧ t.ports = s.ports
        ∧ t.cards = s.cards ∧ t.census = s.census ∧ t.run = s.run ∧ t.exam = s.exam ∧ t.latches = s.latches
        ∧ SameSettings s t ∧ SamePort s t)
    ∧ (∀ e bus nail, (s.laneAt l).pendingEnd = some e → r.program.nails.entries[closed - 1]? = some (bus, nail) →
        s.nailOnline nail = true →
      ∃ t, exec (.acknowledgement f.command.card) s = .next t
        ∧ StepEnded s t l closed k r (VerdictWrite.bare e.verdict none) ∧ t.ports = s.ports)

/-- The acknowledgement of a lane's OPEN: the lane opens the nail before it, skips those on cards that are not ONLINE, and at
the end starts its release wait (R54, R122). The OPEN it requests is that of the nail at its new open position on the bus of
its role. Whatever the cards of the nails before it, the sequence goes on by R122 to the next nail on an ONLINE card, to the
release wait, or with a wait of 0 ticks to the end of the step (R123). A card's release time is its descriptor's. -/
def Obligations.OpenAcknowledgedGoesOn : Prop :=
  (∀ (s : State) (l : LaneNo) (f : InFlight) (k : Slot) (r : StepRecord) (p : Nat), s.link.inFlight = some f →
    f.requester = rankOfLane l → f.command.isIdentify = false → (s.laneAt l).phase = .releasing →
    (s.laneAt l).linkRequest = .inFlight → s.heldBy l = some (k, r) → s.census = none → s.grantable = true →
    (s.laneAt l).openPosition = p + 1 →
    (∀ m bus nail, p = m + 1 → r.program.nails.entries[m]? = some (bus, nail) → s.nailOnline nail = true →
      ∃ t, exec (.acknowledgement f.command.card) s = .next t
        ∧ (∃ request, (request = .waiting ∨ request = .inFlight)
            ∧ t.laneAt l = { s.laneAt l with openPosition := p, linkRequest := request })
        ∧ t.laneCommand l = some (.openOne (cardOf nail) (crosspointOf nail) l bus)
        ∧ (∀ g, t.link.inFlight = some g → g.requester = rankOfLane l →
            g.command = .openOne (cardOf nail) (crosspointOf nail) l bus)
        ∧ t.link.inFlight ≠ none ∧ OtherLanesSameButGrant s t l ∧ SameTables s t ∧ t.ports = s.ports ∧ t.cards = s.cards
        ∧ t.census = s.census ∧ t.run = s.run ∧ t.exam = s.exam ∧ t.latches = s.latches ∧ SameSettings s t ∧ SamePort s t)
    ∧ (let wait := releaseWaitTicks ((s.laneAt l).releaseSet.map s.releaseTime) s.tick
      p = 0 → wait ≠ 0 →
      ∃ t, exec (.acknowledgement f.command.card) s = .next t
        ∧ t.laneAt l = { s.laneAt l with openPosition := 0, linkRequest := .none, timer := some (.releaseWait wait) }
        ∧ OtherLanesSameButGrant s t l ∧ SameTables s t ∧ t.ports = s.ports ∧ t.cards = s.cards
        ∧ t.census = s.census ∧ t.run = s.run ∧ t.exam = s.exam ∧ t.latches = s.latches ∧ SameSettings s t ∧ SamePort s t)
    ∧ (s.canonical = true → s.heldMatches →
      ∃ t, exec (.acknowledgement f.command.card) s = .next t ∧ ReleaseGoneOn s t l k r p))
  ∧ (∀ (s : State) (l : LaneNo) (n : Nat) (bus : Role) (nail : NailNo), (s.heldNails l)[n]? = some (bus, nail) →
    s.nailOnline nail = false → State.openSequence l (n + 1) s = State.openSequence l n s)
  ∧ (∀ (releases : List Nat) (T : Nat), 0 < T →
    (releases = [] → releaseWaitTicks releases T = 0)
    ∧ (∀ u ∈ releases, microTicks u T ≤ releaseWaitTicks releases T)
    ∧ (releases ≠ [] → ∃ u ∈ releases, releaseWaitTicks releases T = microTicks u T))
  ∧ ∀ (s : State) (c : CardNo) (d : Descriptor), (s.cardAt c).descriptor = some d → s.releaseTime c = d.release.toNat

/-- The acknowledgement of OPEN-ALL makes the card ONLINE, which is a dispatch opportunity, and the census goes on or ends with
CENSUS_DONE (R155, R166). -/
def Obligations.OpenAllAcknowledgedPutsCardOnline : Prop :=
  ∀ (s : State) (f : InFlight) (c : CardNo) (x : Census), s.link.inFlight = some f → f.requester = 4 →
    f.command = .openAll c → s.census = some x → s.noLaneWaits = true →
    ∃ t, exec (.acknowledgement c) s = .next t
      ∧ t.cardAt c = { s.cardAt c with state := .online } ∧ OtherCardsSame s t c ∧ CensusMovedOn x s.latches t
      ∧ t.exam = examAfter true s.run.state s.exam ∧ SameTables s t ∧ t.lanes = s.lanes ∧ t.ports = s.ports
      ∧ t.run = s.run ∧ SameSettings s t ∧ SamePort s t

/-- A descriptor for the card being identified: a valid one is stored, a time of 0 as 1, and OPEN-ALL is sent; one whose bytes
do not sum to 0 sets CHECKSUM_BAD and takes the card OFFLINE (R156, R165). -/
def Obligations.DescriptorIsStoredOrRefused : Prop :=
  ∀ (s : State) (f : InFlight) (c : CardNo) (x : Census) (cardType operate release check : Byte),
    s.link.inFlight = some f → f.command = .identify c → s.census = some x → x.current = c → s.noLaneWaits = true →
    (cardType + operate + release + check = 0 →
      ∃ t, exec (.descriptor c cardType operate release check) s = .next t
        ∧ (∃ d, t.cardAt c = { s.cardAt c with descriptor := some d } ∧ d.cardType = cardType
            ∧ d.operate.toNat = max 1 operate.toNat ∧ d.release.toNat = max 1 release.toNat)
        ∧ OtherCardsSame s t c ∧ t.census = some { x with stage := .openAll, request := .inFlight }
        ∧ t.link =
            { lastGranted := 4
              inFlight := some { requester := 4, command := .openAll c, resent := false
                                 timer := s.settings.ackTimeout.toNat }
              sentCommand := some (.openAll c) }
        ∧ t.latches = s.latches ∧ t.exam = s.exam ∧ SameTables s t ∧ t.lanes = s.lanes ∧ t.ports = s.ports
        ∧ t.run = s.run ∧ SameSettings s t ∧ SamePort s t)
    ∧ (cardType + operate + release + check ≠ 0 → s.allLanesIdle = true →
      ∃ t, exec (.descriptor c cardType operate release check) s = .next t
        ∧ t.cardAt c = { s.cardAt c with state := .offline, checksumBad := true } ∧ OtherCardsSame s t c
        ∧ CensusMovedOn x (s.latches.add .cardOffline) t
        ∧ t.exam = s.exam ∧ SameTables s t ∧ t.lanes = s.lanes ∧ t.ports = s.ports ∧ t.run = s.run ∧ SameSettings s t
        ∧ SamePort s t)

/-- The first PARITY answer sets PARITY_SEEN and resends the command under the same grant with its timer afresh (R161). -/
def Obligations.FirstParityResendsCommand : Prop :=
  ∀ (s : State) (f : InFlight), s.link.inFlight = some f → f.resent = false →
    exec (.parity f.command.card) s = .next
      { s.setCard f.command.card { s.cardAt f.command.card with paritySeen := true } with
        link :=
          { s.link with
            inFlight := some
              { f with
                resent := true
                timer := if f.command.isIdentify then s.settings.censusTimeout.toNat else s.settings.ackTimeout.toNat }
            sentCommand := some f.command } }

/-- A second PARITY, or the acknowledgement timer, takes the card OFFLINE with its flag set and its descriptor kept, latches
CARD_OFFLINE, and ends the CLOSING of the lane whose command failed; in a census the engine goes on (R162, R165, R166). The
lane whose CLOSE failed records its pending end, else MATRIX_FAULT (R114). Every other lane that holds a nail on the card takes
the offline notice by its phase, with MATRIX_FAULT recorded and counted, a pending end set, or its release unchanged (R126). -/
def Obligations.FailedCommandTakesCardOffline : Prop :=
  ∀ (s : State) (f : InFlight) (i : Instr) (c : CardNo) (flagged : CardEntry), s.link.inFlight = some f →
    f.command.card = c →
    ((i = .parity c ∧ f.resent = true ∧ flagged = { s.cardAt c with paritySeen := true })
      ∨ (i = .ackTimeout ∧ f.command.isIdentify = false ∧ flagged = { s.cardAt c with timeoutSeen := true })) →
    ∃ t, exec i s = .next t
      ∧ t.cardAt c = { flagged with state := .offline } ∧ OtherCardsSame s t c ∧ t.latches.cardOffline = true
      ∧ (∀ l, f.requester = rankOfLane l → (t.laneAt l).phase ≠ .closing)
      ∧ (∀ l, f.requester = rankOfLane l → (s.laneAt l).linkRequest = .inFlight → s.canonical = true → s.heldMatches →
          OfflineTaken s t l c)
      ∧ (∀ x, f.requester = 4 → s.census = some x → s.allLanesIdle = true → s.noLaneWaits = true →
          CensusMovedOn x (s.latches.add .cardOffline) t ∧ SameTables s t ∧ t.lanes = s.lanes ∧ t.run = s.run)
      ∧ SameSettings s t ∧ SamePort s t

/-- The expiry of the census timer makes the card ABSENT with no flag set, and the census goes on or ends (R157, R165). -/
def Obligations.CensusTimeoutMarksAbsent : Prop :=
  ∀ (s : State) (f : InFlight) (c : CardNo) (x : Census), s.link.inFlight = some f → f.command = .identify c →
    s.census = some x → s.noLaneWaits = true →
    ∃ t, exec .censusTimeout s = .next t
      ∧ t.cardAt c = { s.cardAt c with state := .absent } ∧ OtherCardsSame s t c ∧ CensusMovedOn x s.latches t
      ∧ t.exam = s.exam ∧ SameTables s t ∧ t.lanes = s.lanes ∧ t.ports = s.ports ∧ t.run = s.run ∧ SameSettings s t
      ∧ SamePort s t

/-- CARD READ returns a card with its flags as they stood, at the offsets of section 10.5, and clears them, and refuses a card
above 15 with BAD_REQUEST (R167). An accepted CARD CENSUS takes the cards it covers into CENSUS and sends the first IDENTIFY; it
is refused with BAD_REQUEST for a card field that names none, then with BUSY in a run or in a census (R164). -/
def Obligations.CardRequestsReadAndIdentify : Prop :=
  (∀ (c : CardNo) (e : CardEntry) (T : Nat), CardAt (cardBody c e T) c e T) ∧
  ∀ (s : State) (f : RequestFrame), s.takes → f.body.length = 1 →
    (∀ c : CardNo, (byteAt f.body 0).toNat = c.val →
      exec (.cardRead f) s = .next
        (((s.taken f).setCard c { s.cardAt c with checksumBad := false, paritySeen := false, timeoutSeen := false }).replied
          0x30 f .ok (cardBody c (s.cardAt c) s.tick)))
    ∧ (16 ≤ (byteAt f.body 0).toNat → exec (.cardRead f) s = .next ((s.taken f).replied 0x30 f .badRequest []))
    ∧ (∀ (first : CardNo) (others : List CardNo), s.run.state.active = false → s.census = none → s.link.inFlight = none →
        s.noLaneWaits = true →
        ((byteAt f.body 0).toNat = first.val ∧ others = []
          ∨ byteAt f.body 0 = 0xFF ∧ first = 0 ∧ others = [1, 2, 3, 4, 5, 6, 7, 8, 9, 10, 11, 12, 13, 14, 15]) →
      ∃ t, exec (.cardCensus f) s = .next t
        ∧ (∀ c, c = first ∨ c ∈ others → t.cardAt c = { s.cardAt c with state := .census, descriptor := none })
        ∧ (∀ c, c ≠ first → c ∉ others → t.cardAt c = s.cardAt c)
        ∧ t.census = some { current := first, remaining := others, stage := .identify, request := .inFlight }
        ∧ t.link =
            { lastGranted := 4
              inFlight := some { requester := 4, command := .identify first, resent := false
                                 timer := s.settings.censusTimeout.toNat }
              sentCommand := some (.identify first) }
        ∧ SameTables s t ∧ t.lanes = s.lanes ∧ t.ports = s.ports ∧ t.run = s.run ∧ t.exam = s.exam ∧ t.latches = s.latches
        ∧ SameSettings s t
        ∧ t.port = .replying { code := 0x31, tag := f.tag, status := .started, body := [byteAt f.body 0] })
    ∧ (16 ≤ (byteAt f.body 0).toNat → byteAt f.body 0 ≠ 0xFF →
        exec (.cardCensus f) s = .next ((s.taken f).replied 0x31 f .badRequest []))
    ∧ ((byteAt f.body 0).toNat < 16 ∨ byteAt f.body 0 = 0xFF → s.run.state.active = true ∨ s.census ≠ none →
        exec (.cardCensus f) s = .next ((s.taken f).replied 0x31 f .busy []))

/-! ## Run control -/

/-- An accepted RUN START: the run number raised, every run mark cleared, the summary cleared and its header filled, and the
run ARMED, or RUNNING at once in a closed fixture (R65 to R67, R74); its refusals in their order (R66). A run is in progress
while its state is ARMED, RUNNING or DRAINING. -/
def Obligations.RunStartClearsAndStarts : Prop :=
  (∀ st : RunState, st.active = true ↔ st = .armed ∨ st = .running ∨ st = .draining) ∧
  ∀ (s : State) (f : RequestFrame), s.takes → f.body.length = 3 →
    (∀ mode : RunMode, s.canonical = true → s.run.state.active = false → s.census = none →
        (byteAt f.body 0).toNat = mode.code →
      let header : RunSummary :=
        { mode := mode, reverse := (byteAt f.body 1).getLsbD 0, weight := storedWeight (byteAt f.body 2)
          abortReason := none, elapsed := 0, verdicts := Vector.replicate 11 0, dispatched := 0, retries := 0
          notRun := none }
      ∃ t, exec (.runStart f) s = .next t
        ∧ (∀ k, t.slotAt k = { s.slotAt k with runMark := false }) ∧ t.nails = s.nails
        ∧ (s.run.fixture = .opened →
            t.run = { s.run with state := .armed, number := s.run.number + 1, summary := header }
            ∧ t.exam = s.exam ∧ t.latches = s.latches)
        ∧ (s.run.fixture = .closed →
            RunEndTested { s.run with state := .running, number := s.run.number + 1, summary := header } s.latches t
            ∧ t.exam = .examining)
        ∧ (storedWeight (byteAt f.body 2)).val = min 3 (byteAt f.body 2).toNat
        ∧ SameLinks s t ∧ SameSettings s t
        ∧ t.port = .replying
            { code := 0x40, tag := f.tag, status := .ok
              body := bytes16 (s.run.number + 1)
                ++ [byteOf t.run.state.code, byteOf (storedWeight (byteAt f.body 2)).val] })
    ∧ (s.run.state.active = true → exec (.runStart f) s = .next ((s.taken f).replied 0x40 f .busy []))
    ∧ (s.run.state.active = false → s.census ≠ none →
        exec (.runStart f) s = .next ((s.taken f).replied 0x40 f .notReady []))
    ∧ (s.run.state.active = false → s.census = none → (∀ mode : RunMode, (byteAt f.body 0).toNat ≠ mode.code) →
        exec (.runStart f) s = .next ((s.taken f).replied 0x40 f .badRequest []))

/-- RUN ABORT with the drain manner: a RUNNING run becomes DRAINING, or ABORTED with every lane IDLE, and the lanes are not
told; an ARMED run becomes ABORTED; a DRAINING run is not changed; without a run it is refused (R78, R79, R81, R83). -/
def Obligations.DrainStopsDispatching : Prop :=
  ∀ (s : State) (f : RequestFrame), s.takes → f.body.length = 1 → (byteAt f.body 0).getLsbD 0 = false →
    (s.run.state = .running →
      ∃ t, exec (.runAbortDrain f) s = .next t
        ∧ RunEndTested
            { s.run with state := .draining, summary := { s.run.summary with abortReason := some .drainRequest } }
            s.latches t
        ∧ SameTables s t ∧ SameLinks s t ∧ SameSettings s t ∧ t.exam = s.exam
        ∧ t.port = .replying { code := 0x41, tag := f.tag, status := .ok, body := [byteOf t.run.state.code, 1] })
    ∧ (s.run.state = .armed →
      ∃ t, exec (.runAbortDrain f) s = .next t
        ∧ t.run = ({ s.run with summary := { s.run.summary with abortReason := some .drainRequest } }).closedBy t .aborted
        ∧ t.latches = s.latches.add .runDone ∧ SameTables s t ∧ SameLinks s t ∧ SameSettings s t ∧ t.exam = s.exam
        ∧ t.port = .replying { code := 0x41, tag := f.tag, status := .ok, body := [5, 1] })
    ∧ (s.run.state = .draining → exec (.runAbortDrain f) s = .next
        ((s.taken f).replied 0x41 f .ok [3, byteOf (abortReasonCode s.run.summary.abortReason)]))
    ∧ (s.run.state.active = false → exec (.runAbortDrain f) s = .next ((s.taken f).replied 0x41 f .notActive []))

/-- RUN ABORT with the force manner: every lane takes the order to abandon by its phase. A SETTLING or MEASURING lane, and a
CLOSING lane with no command in flight, has ABORTED recorded and counted and enters RELEASING; a CLOSING lane with its command
in flight gets a pending end; IDLE and RELEASING lanes are unchanged. The run is DRAINING, or ABORTED once every lane is IDLE.
A drain in progress becomes a force, a force is not changed (R75, R78, R80, R81, R124). -/
def Obligations.ForceAbandonsEveryLane : Prop :=
  ∀ (s : State) (f : RequestFrame), s.takes → f.body.length = 1 → (byteAt f.body 0).getLsbD 0 = true →
    ((s.run.state = .running ∨ (s.run.state = .draining ∧ s.run.summary.abortReason = some .drainRequest)) →
      ∃ t, exec (.runAbortForce f) s = .next t
        ∧ t.run.summary.abortReason = some .forceRequest
        ∧ t.run.state = (if t.allLanesIdle then .aborted else .draining)
        ∧ (t.run.state = .aborted → t.latches.runDone = true ∧ t.run.summary.notRun = some t.notRunCount)
        ∧ (∀ l, (t.laneAt l).phase ≠ .settling ∧ (t.laneAt l).phase ≠ .measuring
            ∧ ((t.laneAt l).phase = .closing → (t.laneAt l).pendingEnd ≠ none ∧ (t.laneAt l).linkRequest = .inFlight))
        ∧ t.cards = s.cards ∧ t.run.number = s.run.number ∧ t.run.fixture = s.run.fixture
        ∧ t.timebase = s.timebase ∧ t.enables = s.enables ∧ t.settings = s.settings ∧ t.pending = s.pending
        ∧ (s.canonical = true → s.heldMatches → s.linkServed → LanesAbandoned s t
            { s.run with state := .draining, summary := { s.run.summary with abortReason := some .forceRequest } })
        ∧ t.port = .replying { code := 0x41, tag := f.tag, status := .ok, body := [byteOf t.run.state.code, 2] })
    ∧ (s.run.state = .armed →
      ∃ t, exec (.runAbortForce f) s = .next t
        ∧ t.run = ({ s.run with summary := { s.run.summary with abortReason := some .forceRequest } }).closedBy t .aborted
        ∧ t.latches = s.latches.add .runDone ∧ SameTables s t ∧ SameLinks s t ∧ SameSettings s t ∧ t.exam = s.exam
        ∧ t.port = .replying { code := 0x41, tag := f.tag, status := .ok, body := [5, 2] })
    ∧ (s.run.state = .draining → s.run.summary.abortReason ≠ some .drainRequest → exec (.runAbortForce f) s = .next
        ((s.taken f).replied 0x41 f .ok [3, byteOf (abortReasonCode s.run.summary.abortReason)]))
    ∧ (s.run.state.active = false → exec (.runAbortForce f) s = .next ((s.taken f).replied 0x41 f .notActive []))

/-- A change of the raw level of FXC: back to the filtered state it cancels the interval, away from it it starts one of the
filter code's count, and with code 0 the filtered state follows at once (R70, R71). A high level is CLOSED, a low one OPEN. -/
def Obligations.FixtureFilterFollowsRawLevel : Prop :=
  (fixtureOf true = .closed ∧ fixtureOf false = .opened) ∧
  ∀ (s : State) (high : Bool), high ≠ s.run.rawHigh →
    (fixtureOf high = s.run.fixture →
      exec (.fxcChange high) s = .next { s with run := { s.run with rawHigh := high, filterTimer := none } })
    ∧ (∀ ticks, fixtureOf high ≠ s.run.fixture →
        (s.settings.filterCode, ticks) ∈ [((1 : BitVec 2), 500), (2, 5000), (3, 20000)] →
        exec (.fxcChange high) s = .next { s with run := { s.run with rawHigh := high, filterTimer := some ticks } })
    ∧ (fixtureOf high ≠ s.run.fixture → s.settings.filterCode = 0 →
        ∃ t, exec (.fxcChange high) s = .next t
          ∧ exec .fxcFilterExpiry { s with run := { s.run with rawHigh := high, filterTimer := some 0 } } = .next t)

/-- The expiry of the filter interval gives the filtered state the raw level, and acts on the run by the run state it finds
(R70, R72, R74, R82). An opening orders every lane of a running or draining run to abandon its step as a force does (R82,
R124). -/
def Obligations.FilteredFixtureActsOnRun : Prop :=
  ∀ (s : State) (ticks : Nat), s.run.filterTimer = some ticks →
    let changed : RunControl := { s.run with fixture := fixtureOf s.run.rawHigh, filterTimer := none }
    (s.run.state.active = false ∨ (s.run.state = .draining ∧ s.run.rawHigh = true)
        ∨ (s.run.state = .draining ∧ s.run.rawHigh = false ∧ s.run.summary.abortReason ≠ some .drainRequest) →
      exec .fxcFilterExpiry s = .next { s with run := changed })
    ∧ (s.run.state = .armed → s.run.rawHigh = true →
      ∃ t, exec .fxcFilterExpiry s = .next t ∧ RunEndTested { changed with state := .running } s.latches t
        ∧ t.exam = .examining ∧ SameTables s t ∧ SameLinks s t ∧ SameSettings s t ∧ SamePort s t)
    ∧ ((s.run.state = .running ∨ (s.run.state = .draining ∧ s.run.summary.abortReason = some .drainRequest)) →
        s.run.rawHigh = false →
      ∃ t, exec .fxcFilterExpiry s = .next t
        ∧ t.run.fixture = .opened ∧ t.run.filterTimer = none ∧ t.run.summary.abortReason = some .fixtureOpen
        ∧ t.run.state = (if t.allLanesIdle then .aborted else .draining)
        ∧ (∀ l, (t.laneAt l).phase ≠ .settling ∧ (t.laneAt l).phase ≠ .measuring
            ∧ ((t.laneAt l).phase = .closing → (t.laneAt l).pendingEnd ≠ none ∧ (t.laneAt l).linkRequest = .inFlight))
        ∧ (s.canonical = true → s.heldMatches → s.linkServed → LanesAbandoned s t
            { changed with state := .draining, summary := { s.run.summary with abortReason := some .fixtureOpen } })
        ∧ t.cards = s.cards ∧ t.timebase = s.timebase ∧ t.enables = s.enables
        ∧ t.settings = s.settings ∧ t.pending = s.pending ∧ SamePort s t)

/-- A pace tick of a RUNNING or DRAINING run raises the elapsed counter by one, saturating (R73). -/
def Obligations.ElapsedCounterSaturates : Prop :=
  ∀ s : State, s.run.state = .running ∨ s.run.state = .draining →
    ∃ e : BitVec 32, e.toNat = min 4294967295 (s.run.summary.elapsed.toNat + 1)
      ∧ exec .runElapsedTick s = .next { s with run := { s.run with summary := { s.run.summary with elapsed := e } } }

/-- Whenever a step takes a run into DONE or ABORTED, the run is closed in that event: every lane is IDLE, the not-run count is
that of the records as they stand, of a measured kind and without run mark, and RUN_DONE is latched (R76, R77, R78, R83). -/
def Obligations.RunClosesWithItsCount : Prop :=
  (∀ s : State, (s.allLanesIdle = true ↔ ∀ l, (s.laneAt l).phase = .idle)
    ∧ s.notRunCount = (s.steps.filter (fun e => match e.2.record with
        | none => false
        | some r => !e.2.runMark && s.run.summary.mode.measures r.program.kind)).length) ∧
  ∀ s t : State, s.lanesQuiet → s.run.state ≠ .done → s.run.state ≠ .aborted → step s = .next t →
    (t.run.state = .done ∨ t.run.state = .aborted) →
    t.allLanesIdle = true ∧ t.run.summary.notRun = some t.notRunCount ∧ t.latches.runDone = true
    ∧ (t.run.state = .done → t.candidates = [])

/-! ## The Dispatcher -/

/-- The window is the first eight candidates in walk order: the walk is the candidates, each before the next by order key and
slot, in the run's direction (R68, R89, R90). TEST measures both kinds, CONTACT the CONTACT and LEARN the MEASURE records. -/
def Obligations.WindowIsFirstEightInWalkOrder : Prop :=
  (∀ (mode : RunMode) (kind : StepKind), mode.measures kind = true ↔
    mode = .test ∨ (mode = .contact ∧ kind = .contact) ∨ (mode = .learn ∧ kind = .measure)) ∧
  (∀ (s : State) (k : Slot) (r : StepRecord), s.recordAt k = some r → s.keyAt k = r.program.orderKey.toNat) ∧
  ∀ s : State, s.canonical = true →
    s.walk.Perm s.candidates
    ∧ (∀ k, k ∈ s.candidates ↔ ∃ r, s.recordAt k = some r ∧ r.status = .ready ∧ (s.slotAt k).runMark = false
        ∧ s.run.summary.mode.measures r.program.kind = true)
    ∧ s.walk.Pairwise (fun a b => if s.run.summary.reverse
        then s.keyAt b < s.keyAt a ∨ (s.keyAt b = s.keyAt a ∧ b < a)
        else s.keyAt a < s.keyAt b ∨ (s.keyAt a = s.keyAt b ∧ a < b))
    ∧ s.window = s.walk.take 8

/-- An examination step passes over entries in window order, and the first test that acts on an entry decides it (R93, R95,
R96, R98 to R102). A record touches a dead card when a nail of its list lies on a card that is not ONLINE (R95), a SUSPECT
nail when one of its nails but the SRC_HI nail of a CONTACT record is SUSPECT (R96), and is bindable to an IDLE lane when no nail
of its list that is not common is bound (R36, R100). -/
def Obligations.FirstActingTestDecides : Prop :=
  (∀ (s : State) (r : StepRecord),
    (s.touchesDeadCard r = true ↔
      ∃ n ∈ r.program.nails.toList, ∃ c : CardNo, c.val = n.val / 256 ∧ (s.cardAt c).state ≠ .online)
    ∧ (s.touchesSuspect r = true ↔
      ∃ e ∈ r.program.nails.entries, (s.nailAt e.2).state = .suspect ∧ ¬ (e.1 = .srcHi ∧ r.program.kind = .contact))
    ∧ (∀ l, s.bindable l r.program.nails = true ↔
      ∀ n ∈ r.program.nails.toList,
        if (s.nailAt n).common then (s.nailAt n).bindings[l] = none else ∀ m : LaneNo, (s.nailAt n).bindings[m] = none)
    ∧ (∀ l, s.idleLanesClean → (s.laneAt l).phase = .idle → (s.bindable l r.program.nails = true ↔
      ∀ n ∈ r.program.nails.toList, (s.nailAt n).common = false → ∀ m : LaneNo, (s.nailAt n).bindings[m] = none))
    ∧ (s.barrierHeld = true ↔ ∃ l k x, s.heldBy l = some (k, x) ∧ x.program.barrier = true)) ∧
  ∀ (s : State) (front : Bool) (before after : List Slot) (k : Slot) (r : StepRecord),
    (∀ j ∈ before, s.passedOver j = true) → s.recordAt k = some r →
    let decision := s.examine front (before ++ k :: after)
    (s.touchesDeadCard r = true → decision = .skip k .skipCard)
    ∧ (s.touchesDeadCard r = false → s.touchesSuspect r = true → decision = .skip k .skipNail)
    ∧ (s.touchesDeadCard r = false → s.touchesSuspect r = false → r.program.barrier = true →
        (s.bindable 0 r.program.nails = true ∧ front = true ∧ before = [] ∧ s.allLanesIdle = true →
          decision = .dispatch k 0)
        ∧ (front = false ∨ before ≠ [] ∨ s.allLanesIdle = false → decision = .nothing))
    ∧ (∀ l, s.touchesDeadCard r = false → s.touchesSuspect r = false → r.program.barrier = false → s.barrierHeld = false →
        (s.laneAt l).phase = .idle → (∀ m, m < l → (s.laneAt m).phase ≠ .idle) → s.bindable l r.program.nails = true →
        decision = .dispatch k l)
    ∧ (s.passedOver k = true → decision = s.examine false after)

/-- A skip verdict: the record stays READY and is run-marked with no value, deviation or range, its statistics as they were;
the count of the skip rises and the run's end is tested (R97, R147, R152). -/
def Obligations.SkipVerdictIsRecorded : Prop :=
  ∀ (s : State) (k : Slot) (r : StepRecord) (v : Verdict), s.run.state = .running → s.exam = .examining →
    s.examine true s.window = .skip k v → s.recordAt k = some r → (v = .skipCard ∨ v = .skipNail) →
    ∃ t, exec .examinationStep s = .next t
      ∧ t.slotAt k =
          { runMark := true
            record := some
              { r with
                stats :=
                  { r.stats with
                    lastVerdict := some v, lastValue := none, lastDeviation := none, lastRange := none
                    lastRun := some s.run.number } } }
      ∧ OtherSlotsSame s t k ∧ t.nails = s.nails ∧ t.exam = .examining
      ∧ RunEndTested (s.run.counting v) s.latches t ∧ SameLinks s t ∧ SameSettings s t ∧ SamePort s t

/-- A dispatch: the nails bound to the lane on the bus of their roles, the record HELD and run-marked, the dispatched count
raised, and the lane CLOSING with the CLOSE of its SRC_HI nail requested, sent at once on a free link; an examination that
finds nothing to do ends (R23, R37, R93, R94, R103, R112, R159). -/
def Obligations.DispatchBindsAndHolds : Prop :=
  (∀ (s : State) (k : Slot) (l : LaneNo) (r : StepRecord), s.run.state = .running → s.exam = .examining →
    s.examine true s.window = .dispatch k l → s.recordAt k = some r → r.program.nails.toList.Nodup → s.linkServed →
    ∃ t, exec .examinationStep s = .next t
      ∧ t.slotAt k = { runMark := true, record := some { r with status := .held false none false } }
      ∧ OtherSlotsSame s t k
      ∧ (∀ n, t.nailAt n =
          (match r.program.nails.roleOf n with
          | none => s.nailAt n
          | some role =>
            { s.nailAt n with bindings := (s.nailAt n).bindings.set l.val (some role) l.isLt }))
      ∧ t.run = { s.run with summary := { s.run.summary with dispatched := s.run.summary.dispatched + 1 } }
      ∧ t.laneAt l =
          { phase := .closing, heldSlot := some k, closedCount := 0
            linkRequest := if s.link.inFlight = none then .inFlight else .waiting
            pendingEnd := none, retriesUsed := 0, rangeInUse := r.program.timing.baseRange.val, releaseSet := []
            openPosition := 0, timer := none }
      ∧ OtherLanesSame s t l
      ∧ (s.link.inFlight = none → t.link.inFlight = some
          { requester := rankOfLane l
            command := .close (cardOf r.program.nails.srcHi) (crosspointOf r.program.nails.srcHi) l .srcHi
            resent := false, timer := s.settings.ackTimeout.toNat })
      ∧ (s.link.inFlight ≠ none → t.link = s.link)
      ∧ t.exam = .examining ∧ t.latches = s.latches ∧ t.ports = s.ports ∧ t.cards = s.cards ∧ t.census = s.census
      ∧ SameSettings s t ∧ SamePort s t)
  ∧ (∀ s : State, s.exam = .examining → (s.run.state ≠ .running ∨ s.examine true s.window = .nothing) →
    exec .examinationStep s = .next { s with exam := .waiting })
  ∧ ∀ (nails : NailList) (n : NailNo), nails.toList.Nodup →
    (∀ role, nails.roleOf n = some role ↔ (role, n) ∈ nails.entries) ∧ (nails.roleOf n = none ↔ n ∉ nails.toList)

/-! ## What every step keeps -/

/-- Every step keeps the Step Table and the Nail Map in their canonical form (the model's form of them, log 10). -/
def Obligations.EveryStepKeepsTablesCanonical : Prop :=
  ∀ s t : State, s.canonical = true → step s = .next t → t.canonical = true

/-- Every step keeps this: while the run is not RUNNING or DRAINING every lane is IDLE, and an IDLE lane holds nothing and no
nail is bound to it (R35, R64, R109). And a census is in progress only while no run is, so with every lane IDLE (R66,
R164). -/
def Obligations.EveryStepKeepsLanesQuiet : Prop :=
  (∀ s t : State, s.canonical = true → s.lanesQuiet → s.idleLanesClean → step s = .next t →
    t.lanesQuiet ∧ t.idleLanesClean)
  ∧ ∀ s t : State, s.censusQuiet → step s = .next t → t.censusQuiet

/-- Every step keeps this: while the link is free nobody waits for it (R159), and only a lane in CLOSING with its command in
flight has a pending end (R125). The lanes hold records of their own, as EveryStepKeepsHeldRecordsMatched says. -/
def Obligations.EveryStepKeepsLinkServed : Prop :=
  ∀ s t : State, s.canonical = true → s.heldMatches → step s = .next t →
    (s.linkServed → t.linkServed) ∧ (s.pendingEndsSound → t.pendingEndsSound)

/-- Every step keeps every nail list without repeats and with at most four guards (R3), and the reference counts equal to the
number of records that name each nail (R31). -/
def Obligations.EveryStepKeepsReferenceCounts : Prop :=
  ∀ s t : State, s.canonical = true → s.listsSound = true → s.refsExact → step s = .next t →
    t.listsSound = true ∧ t.refsExact

/-- Every step keeps the HELD records and the busy lanes matched one to one (R109). -/
def Obligations.EveryStepKeepsHeldRecordsMatched : Prop :=
  ∀ s t : State, s.canonical = true → s.heldMatches → step s = .next t → t.heldMatches

/-- The properties that every step keeps hold at State.reset. -/
def Obligations.KeptPropertiesHoldAtReset : Prop :=
  State.reset.canonical = true ∧ State.reset.lanesQuiet ∧ State.reset.idleLanesClean ∧ State.reset.linkServed
    ∧ State.reset.pendingEndsSound ∧ State.reset.censusQuiet
    ∧ State.reset.listsSound = true ∧ State.reset.refsExact ∧ State.reset.heldMatches
end

