-- ==== Sys2Proof/Laws/Table.lean ====
section
/-! SUPPORT. Laws of the sparse tables: what reading gives after each operation, and that each keeps the canonical form. -/

namespace Sys2Proof.Machine

variable {n : Nat} {α : Type}

/-! ## Reading -/

@[simp] theorem Table.get_nil (d : α) (k : Fin n) : Table.get d [] k = d := rfl

theorem Table.get_cons (d : α) (k' : Fin n) (v : α) (t : List (Fin n × α)) (k : Fin n) :
    Table.get d ((k', v) :: t) k = if k' = k then v else Table.get d t k := rfl

/-- A key that is not listed reads as the default. -/
theorem Table.get_of_not_listed {d : α} {t : List (Fin n × α)} {k : Fin n} (h : ∀ e ∈ t, e.1 ≠ k) :
    Table.get d t k = d := by
  induction t with
  | nil => rfl
  | cons e t ih =>
    obtain ⟨k', v⟩ := e
    have hk : k' ≠ k := h (k', v) (by simp)
    simp only [Table.get_cons, if_neg hk]
    exact ih fun e he => h e (by simp [he])

/-- What a key reads is the default or listed under it. -/
theorem Table.get_default_or_listed (d : α) (t : List (Fin n × α)) (k : Fin n) :
    Table.get d t k = d ∨ (k, Table.get d t k) ∈ t := by
  induction t with
  | nil => exact .inl rfl
  | cons e t ih =>
    obtain ⟨k', v⟩ := e
    by_cases hk : k' = k
    · subst hk; right; simp [Table.get_cons]
    · simp only [Table.get_cons, if_neg hk]
      rcases ih with h | h
      · exact .inl h
      · exact .inr (List.mem_cons_of_mem _ h)

theorem Table.get_erase (d : α) (t : List (Fin n × α)) (k j : Fin n) :
    Table.get d (Table.erase t k) j = if j = k then d else Table.get d t j := by
  induction t with
  | nil => simp [Table.erase]
  | cons e t ih =>
    obtain ⟨k', v⟩ := e
    by_cases hk : k' = k
    · subst hk
      have he : Table.erase ((k', v) :: t) k' = Table.erase t k' := by simp [Table.erase]
      rw [he, ih, Table.get_cons]
      by_cases hj : j = k'
      · simp [hj]
      · simp [hj, Ne.symm hj]
    · have he : Table.erase ((k', v) :: t) k = (k', v) :: Table.erase t k := by simp [Table.erase, hk]
      rw [he, Table.get_cons, Table.get_cons, ih]
      by_cases hj : k' = j
      · subst hj; simp [hk]
      · simp [hj]

theorem Table.get_insert (d : α) (t : List (Fin n × α)) (k : Fin n) (v : α) (j : Fin n) (h : ∀ e ∈ t, e.1 ≠ k) :
    Table.get d (Table.insert k v t) j = if j = k then v else Table.get d t j := by
  induction t with
  | nil => simp [Table.insert, Table.get_cons, eq_comm]
  | cons e t ih =>
    obtain ⟨k', w⟩ := e
    have hk : k' ≠ k := h (k', w) (by simp)
    have ih := ih fun e he => h e (by simp [he])
    by_cases hlt : k < k'
    · simp only [Table.insert, if_pos hlt, Table.get_cons]
      by_cases hj : j = k
      · simp [hj]
      · simp [hj, Ne.symm hj]
    · simp only [Table.insert, if_neg hlt, Table.get_cons, ih]
      by_cases hj : j = k
      · subst hj; simp [hk]
      · simp [hj]

theorem Table.not_listed_erase (t : List (Fin n × α)) (k : Fin n) : ∀ e ∈ Table.erase t k, e.1 ≠ k := by
  intro e he
  simpa [Table.erase] using (List.mem_filter.mp he).2

/-- Reading after a write: the value at the key written, what it was elsewhere. -/
theorem Table.get_set [DecidableEq α] (d : α) (t : List (Fin n × α)) (k : Fin n) (v : α) (j : Fin n) :
    Table.get d (Table.set d t k v) j = if j = k then v else Table.get d t j := by
  unfold Table.set
  split
  · rename_i hv; rw [Table.get_erase]; by_cases hj : j = k <;> simp [hj, hv]
  · rw [Table.get_insert _ _ _ _ _ (Table.not_listed_erase t k), Table.get_erase]
    by_cases hj : j = k <;> simp [hj]

/-- Reading after a change of every entry by a function that keeps the default. -/
theorem Table.get_mapAll [DecidableEq α] (d : α) (f : α → α) (hf : f d = d) (t : List (Fin n × α))
    (ht : t.Pairwise (fun a b => a.1 < b.1)) (k : Fin n) :
    Table.get d (Table.mapAll d f t) k = f (Table.get d t k) := by
  induction t generalizing k with
  | nil => simp [Table.mapAll, hf]
  | cons e t ih =>
    obtain ⟨k', v⟩ := e
    have ht' := List.pairwise_cons.mp ht
    have hlist : ∀ k, (∀ e ∈ t, e.1 ≠ k) → Table.get d (Table.mapAll d f t) k = d := by
      intro k hk
      rw [ih ht'.2 k, Table.get_of_not_listed hk, hf]
    have hout : ∀ e ∈ t, e.1 ≠ k' := fun e he heq => absurd (ht'.1 e he) (by simp [heq])
    simp only [Table.mapAll, Table.get_cons]
    by_cases hv : f v = d
    · rw [if_pos hv]
      by_cases hk : k' = k
      · subst hk; simp [hlist k' hout, hv]
      · simp [hk, ih ht'.2]
    · rw [if_neg hv, Table.get_cons]
      by_cases hk : k' = k
      · simp [hk]
      · simp [hk, ih ht'.2]

/-! ## The canonical form -/

theorem Table.wf_iff [DecidableEq α] (d : α) (t : List (Fin n × α)) :
    Table.wf d t = true ↔ t.Pairwise (fun a b => a.1 < b.1) ∧ ∀ e ∈ t, e.2 ≠ d := by
  simp [Table.wf]

@[simp] theorem Table.wf_nil [DecidableEq α] (d : α) : Table.wf d ([] : List (Fin n × α)) = true := by
  simp [Table.wf_iff]

/-- In a canonical table an entry is listed exactly when it differs from the default. -/
theorem Table.mem_iff_get [DecidableEq α] {d : α} {t : List (Fin n × α)} (h : Table.wf d t = true) (k : Fin n) (v : α) :
    (k, v) ∈ t ↔ Table.get d t k = v ∧ v ≠ d := by
  obtain ⟨hp, hd⟩ := (Table.wf_iff d t).mp h
  constructor
  · intro hm
    refine ⟨?_, hd _ hm⟩
    clear hd h
    induction t with
    | nil => cases hm
    | cons e t ih =>
      obtain ⟨k', w⟩ := e
      obtain ⟨hlt, hp'⟩ := List.pairwise_cons.mp hp
      rcases List.mem_cons.mp hm with heq | hm
      · cases heq; simp [Table.get_cons]
      · have : k' < k := hlt _ hm
        simp [Table.get_cons, ne_of_lt this, ih hp' hm]
  · rintro ⟨hg, hv⟩
    rcases Table.get_default_or_listed d t k with h0 | h0
    · exact absurd (hg.symm.trans h0) hv
    · rwa [hg] at h0

theorem Table.pairwise_erase {t : List (Fin n × α)} (h : t.Pairwise (fun a b => a.1 < b.1)) (k : Fin n) :
    (Table.erase t k).Pairwise (fun a b => a.1 < b.1) := h.filter _

theorem Table.mem_insert (k : Fin n) (v : α) (t : List (Fin n × α)) (e : Fin n × α) :
    e ∈ Table.insert k v t ↔ e = (k, v) ∨ e ∈ t := by
  induction t with
  | nil => simp [Table.insert]
  | cons x t ih =>
    simp only [Table.insert]
    split
    · simp
    · simp only [List.mem_cons, ih]; tauto

theorem Table.pairwise_insert {t : List (Fin n × α)} (h : t.Pairwise (fun a b => a.1 < b.1)) (k : Fin n) (v : α)
    (hk : ∀ e ∈ t, e.1 ≠ k) : (Table.insert k v t).Pairwise (fun a b => a.1 < b.1) := by
  induction t with
  | nil => simp [Table.insert]
  | cons x t ih =>
    obtain ⟨hlt, hp⟩ := List.pairwise_cons.mp h
    simp only [Table.insert]
    split
    · rename_i hx
      refine List.pairwise_cons.mpr ⟨fun e he => ?_, h⟩
      rcases List.mem_cons.mp he with rfl | he
      · exact hx
      · exact lt_trans hx (hlt e he)
    · rename_i hx
      refine List.pairwise_cons.mpr ⟨fun e he => ?_, ih hp fun e he => hk e (by simp [he])⟩
      rcases (Table.mem_insert k v t e).mp he with rfl | he
      · exact lt_of_le_of_ne (not_lt.mp hx) (hk x (by simp))
      · exact hlt e he

/-- A write keeps the canonical form. -/
theorem Table.wf_set [DecidableEq α] {d : α} {t : List (Fin n × α)} (h : Table.wf d t = true) (k : Fin n) (v : α) :
    Table.wf d (Table.set d t k v) = true := by
  obtain ⟨hp, hd⟩ := (Table.wf_iff d t).mp h
  have he : ∀ e ∈ Table.erase t k, e.2 ≠ d := fun e he => hd e (List.mem_filter.mp he).1
  rw [Table.wf_iff]
  unfold Table.set
  split
  · exact ⟨Table.pairwise_erase hp k, he⟩
  · rename_i hv
    refine ⟨Table.pairwise_insert (Table.pairwise_erase hp k) k v (Table.not_listed_erase t k), fun e hm => ?_⟩
    rcases (Table.mem_insert k v _ e).mp hm with rfl | hm
    · exact hv
    · exact he e hm

theorem Table.key_of_mem_mapAll [DecidableEq α] (d : α) (f : α → α) (t : List (Fin n × α)) (e : Fin n × α)
    (h : e ∈ Table.mapAll d f t) : e.2 ≠ d ∧ ∃ x ∈ t, x.1 = e.1 ∧ f x.2 = e.2 := by
  induction t with
  | nil => cases h
  | cons y t ih =>
    obtain ⟨k', v⟩ := y
    simp only [Table.mapAll] at h
    split at h
    · obtain ⟨h1, x, hx, h2⟩ := ih h
      exact ⟨h1, x, List.mem_cons_of_mem _ hx, h2⟩
    · rename_i hv
      rcases List.mem_cons.mp h with rfl | h
      · exact ⟨hv, (k', v), by simp, rfl, rfl⟩
      · obtain ⟨h1, x, hx, h2⟩ := ih h
        exact ⟨h1, x, List.mem_cons_of_mem _ hx, h2⟩

/-- A change of every entry keeps the canonical form. -/
theorem Table.wf_mapAll [DecidableEq α] {d : α} (f : α → α) {t : List (Fin n × α)} (h : Table.wf d t = true) :
    Table.wf d (Table.mapAll d f t) = true := by
  have hp := ((Table.wf_iff d t).mp h).1
  rw [Table.wf_iff]
  refine ⟨?_, fun e he => (Table.key_of_mem_mapAll d f t e he).1⟩
  clear h
  induction t with
  | nil => simp [Table.mapAll]
  | cons x t ih =>
    obtain ⟨k', v⟩ := x
    obtain ⟨hlt, hp'⟩ := List.pairwise_cons.mp hp
    simp only [Table.mapAll]
    split
    · exact ih hp'
    · refine List.pairwise_cons.mpr ⟨fun e he => ?_, ih hp'⟩
      obtain ⟨_, x, hx, hk, _⟩ := Table.key_of_mem_mapAll d f t e he
      exact hk ▸ hlt x hx

/-- Two canonical tables that read the same are the same list. -/
theorem Table.ext_get [DecidableEq α] {d : α} {t u : List (Fin n × α)} (ht : Table.wf d t = true)
    (hu : Table.wf d u = true) (h : ∀ k, Table.get d t k = Table.get d u k) : t = u := by
  have hmem : ∀ e, e ∈ t ↔ e ∈ u := by
    rintro ⟨k, v⟩
    rw [Table.mem_iff_get ht, Table.mem_iff_get hu, h k]
  have htp := ((Table.wf_iff d t).mp ht).1
  have hup := ((Table.wf_iff d u).mp hu).1
  have hnd : ∀ {w : List (Fin n × α)}, w.Pairwise (fun a b => a.1 < b.1) → w.Nodup := fun hw =>
    hw.imp (fun hab heq => absurd hab (by simp [heq]))
  refine List.Perm.eq_of_pairwise (le := fun a b => a.1 < b.1) ?_ htp hup ((List.perm_ext_iff_of_nodup (hnd htp) (hnd hup)).mpr hmem)
  intro a b _ _ hab hba
  exact absurd hab (not_lt.mpr (le_of_lt hba))

end Sys2Proof.Machine
end

