-- ==== Sys2Proof/Laws/State.lean ====
section
/-! SUPPORT. Laws of the named updates of State: one lemma for each field after each update, so that no proof unfolds a
record update, and what the readers of entries give after each update. -/

namespace Sys2Proof.Machine

/-! ## Fields after an update -/

@[simp] theorem State.setSlot_steps (s : State) (k : Slot) (v : StepSlot) :
    (s.setSlot k v).steps = Table.set StepSlot.blank s.steps k v := (rfl)
@[simp] theorem State.setSlot_nails (s : State) (k : Slot) (v : StepSlot) : (s.setSlot k v).nails = s.nails := (rfl)
@[simp] theorem State.setSlot_timebase (s : State) (k : Slot) (v : StepSlot) :
    (s.setSlot k v).timebase = s.timebase := (rfl)
@[simp] theorem State.setSlot_run (s : State) (k : Slot) (v : StepSlot) : (s.setSlot k v).run = s.run := (rfl)
@[simp] theorem State.setSlot_exam (s : State) (k : Slot) (v : StepSlot) : (s.setSlot k v).exam = s.exam := (rfl)
@[simp] theorem State.setSlot_lanes (s : State) (k : Slot) (v : StepSlot) : (s.setSlot k v).lanes = s.lanes := (rfl)
@[simp] theorem State.setSlot_ports (s : State) (k : Slot) (v : StepSlot) : (s.setSlot k v).ports = s.ports := (rfl)
@[simp] theorem State.setSlot_cards (s : State) (k : Slot) (v : StepSlot) : (s.setSlot k v).cards = s.cards := (rfl)
@[simp] theorem State.setSlot_link (s : State) (k : Slot) (v : StepSlot) : (s.setSlot k v).link = s.link := (rfl)
@[simp] theorem State.setSlot_census (s : State) (k : Slot) (v : StepSlot) : (s.setSlot k v).census = s.census := (rfl)
@[simp] theorem State.setSlot_port (s : State) (k : Slot) (v : StepSlot) : (s.setSlot k v).port = s.port := (rfl)
@[simp] theorem State.setSlot_transfer (s : State) (k : Slot) (v : StepSlot) :
    (s.setSlot k v).transfer = s.transfer := (rfl)
@[simp] theorem State.setSlot_shiftedOut (s : State) (k : Slot) (v : StepSlot) :
    (s.setSlot k v).shiftedOut = s.shiftedOut := (rfl)
@[simp] theorem State.setSlot_latches (s : State) (k : Slot) (v : StepSlot) :
    (s.setSlot k v).latches = s.latches := (rfl)
@[simp] theorem State.setSlot_enables (s : State) (k : Slot) (v : StepSlot) :
    (s.setSlot k v).enables = s.enables := (rfl)
@[simp] theorem State.setSlot_settings (s : State) (k : Slot) (v : StepSlot) :
    (s.setSlot k v).settings = s.settings := (rfl)
@[simp] theorem State.setSlot_freeDraws (s : State) (k : Slot) (v : StepSlot) :
    (s.setSlot k v).freeDraws = s.freeDraws := (rfl)
@[simp] theorem State.setSlot_pending (s : State) (k : Slot) (v : StepSlot) :
    (s.setSlot k v).pending = s.pending := (rfl)

@[simp] theorem State.setRecord_steps (s : State) (k : Slot) (r : StepRecord) :
    (s.setRecord k r).steps =
      Table.set StepSlot.blank s.steps k { runMark := (s.slotAt k).runMark, record := some r } :=
  (rfl)
@[simp] theorem State.setRecord_nails (s : State) (k : Slot) (r : StepRecord) :
    (s.setRecord k r).nails = s.nails := (rfl)
@[simp] theorem State.setRecord_timebase (s : State) (k : Slot) (r : StepRecord) :
    (s.setRecord k r).timebase = s.timebase := (rfl)
@[simp] theorem State.setRecord_run (s : State) (k : Slot) (r : StepRecord) : (s.setRecord k r).run = s.run := (rfl)
@[simp] theorem State.setRecord_exam (s : State) (k : Slot) (r : StepRecord) : (s.setRecord k r).exam = s.exam := (rfl)
@[simp] theorem State.setRecord_lanes (s : State) (k : Slot) (r : StepRecord) :
    (s.setRecord k r).lanes = s.lanes := (rfl)
@[simp] theorem State.setRecord_ports (s : State) (k : Slot) (r : StepRecord) :
    (s.setRecord k r).ports = s.ports := (rfl)
@[simp] theorem State.setRecord_cards (s : State) (k : Slot) (r : StepRecord) :
    (s.setRecord k r).cards = s.cards := (rfl)
@[simp] theorem State.setRecord_link (s : State) (k : Slot) (r : StepRecord) : (s.setRecord k r).link = s.link := (rfl)
@[simp] theorem State.setRecord_census (s : State) (k : Slot) (r : StepRecord) :
    (s.setRecord k r).census = s.census := (rfl)
@[simp] theorem State.setRecord_port (s : State) (k : Slot) (r : StepRecord) : (s.setRecord k r).port = s.port := (rfl)
@[simp] theorem State.setRecord_transfer (s : State) (k : Slot) (r : StepRecord) :
    (s.setRecord k r).transfer = s.transfer := (rfl)
@[simp] theorem State.setRecord_shiftedOut (s : State) (k : Slot) (r : StepRecord) :
    (s.setRecord k r).shiftedOut = s.shiftedOut := (rfl)
@[simp] theorem State.setRecord_latches (s : State) (k : Slot) (r : StepRecord) :
    (s.setRecord k r).latches = s.latches := (rfl)
@[simp] theorem State.setRecord_enables (s : State) (k : Slot) (r : StepRecord) :
    (s.setRecord k r).enables = s.enables := (rfl)
@[simp] theorem State.setRecord_settings (s : State) (k : Slot) (r : StepRecord) :
    (s.setRecord k r).settings = s.settings := (rfl)
@[simp] theorem State.setRecord_freeDraws (s : State) (k : Slot) (r : StepRecord) :
    (s.setRecord k r).freeDraws = s.freeDraws := (rfl)
@[simp] theorem State.setRecord_pending (s : State) (k : Slot) (r : StepRecord) :
    (s.setRecord k r).pending = s.pending := (rfl)

@[simp] theorem State.setNail_steps (s : State) (n : NailNo) (e : NailEntry) : (s.setNail n e).steps = s.steps := (rfl)
@[simp] theorem State.setNail_nails (s : State) (n : NailNo) (e : NailEntry) :
    (s.setNail n e).nails = Table.set NailEntry.blank s.nails n e := (rfl)
@[simp] theorem State.setNail_timebase (s : State) (n : NailNo) (e : NailEntry) :
    (s.setNail n e).timebase = s.timebase := (rfl)
@[simp] theorem State.setNail_run (s : State) (n : NailNo) (e : NailEntry) : (s.setNail n e).run = s.run := (rfl)
@[simp] theorem State.setNail_exam (s : State) (n : NailNo) (e : NailEntry) : (s.setNail n e).exam = s.exam := (rfl)
@[simp] theorem State.setNail_lanes (s : State) (n : NailNo) (e : NailEntry) : (s.setNail n e).lanes = s.lanes := (rfl)
@[simp] theorem State.setNail_ports (s : State) (n : NailNo) (e : NailEntry) : (s.setNail n e).ports = s.ports := (rfl)
@[simp] theorem State.setNail_cards (s : State) (n : NailNo) (e : NailEntry) : (s.setNail n e).cards = s.cards := (rfl)
@[simp] theorem State.setNail_link (s : State) (n : NailNo) (e : NailEntry) : (s.setNail n e).link = s.link := (rfl)
@[simp] theorem State.setNail_census (s : State) (n : NailNo) (e : NailEntry) :
    (s.setNail n e).census = s.census := (rfl)
@[simp] theorem State.setNail_port (s : State) (n : NailNo) (e : NailEntry) : (s.setNail n e).port = s.port := (rfl)
@[simp] theorem State.setNail_transfer (s : State) (n : NailNo) (e : NailEntry) :
    (s.setNail n e).transfer = s.transfer := (rfl)
@[simp] theorem State.setNail_shiftedOut (s : State) (n : NailNo) (e : NailEntry) :
    (s.setNail n e).shiftedOut = s.shiftedOut := (rfl)
@[simp] theorem State.setNail_latches (s : State) (n : NailNo) (e : NailEntry) :
    (s.setNail n e).latches = s.latches := (rfl)
@[simp] theorem State.setNail_enables (s : State) (n : NailNo) (e : NailEntry) :
    (s.setNail n e).enables = s.enables := (rfl)
@[simp] theorem State.setNail_settings (s : State) (n : NailNo) (e : NailEntry) :
    (s.setNail n e).settings = s.settings := (rfl)
@[simp] theorem State.setNail_freeDraws (s : State) (n : NailNo) (e : NailEntry) :
    (s.setNail n e).freeDraws = s.freeDraws := (rfl)
@[simp] theorem State.setNail_pending (s : State) (n : NailNo) (e : NailEntry) :
    (s.setNail n e).pending = s.pending := (rfl)

@[simp] theorem State.setRefCount_steps (s : State) (n : NailNo) (c : Nat) :
    (s.setRefCount n c).steps = s.steps := (rfl)
@[simp] theorem State.setRefCount_nails (s : State) (n : NailNo) (c : Nat) :
    (s.setRefCount n c).nails = Table.set NailEntry.blank s.nails n { s.nailAt n with refCount := c } := (rfl)
@[simp] theorem State.setRefCount_timebase (s : State) (n : NailNo) (c : Nat) :
    (s.setRefCount n c).timebase = s.timebase := (rfl)
@[simp] theorem State.setRefCount_run (s : State) (n : NailNo) (c : Nat) : (s.setRefCount n c).run = s.run := (rfl)
@[simp] theorem State.setRefCount_exam (s : State) (n : NailNo) (c : Nat) : (s.setRefCount n c).exam = s.exam := (rfl)
@[simp] theorem State.setRefCount_lanes (s : State) (n : NailNo) (c : Nat) :
    (s.setRefCount n c).lanes = s.lanes := (rfl)
@[simp] theorem State.setRefCount_ports (s : State) (n : NailNo) (c : Nat) :
    (s.setRefCount n c).ports = s.ports := (rfl)
@[simp] theorem State.setRefCount_cards (s : State) (n : NailNo) (c : Nat) :
    (s.setRefCount n c).cards = s.cards := (rfl)
@[simp] theorem State.setRefCount_link (s : State) (n : NailNo) (c : Nat) : (s.setRefCount n c).link = s.link := (rfl)
@[simp] theorem State.setRefCount_census (s : State) (n : NailNo) (c : Nat) :
    (s.setRefCount n c).census = s.census := (rfl)
@[simp] theorem State.setRefCount_port (s : State) (n : NailNo) (c : Nat) : (s.setRefCount n c).port = s.port := (rfl)
@[simp] theorem State.setRefCount_transfer (s : State) (n : NailNo) (c : Nat) :
    (s.setRefCount n c).transfer = s.transfer := (rfl)
@[simp] theorem State.setRefCount_shiftedOut (s : State) (n : NailNo) (c : Nat) :
    (s.setRefCount n c).shiftedOut = s.shiftedOut := (rfl)
@[simp] theorem State.setRefCount_latches (s : State) (n : NailNo) (c : Nat) :
    (s.setRefCount n c).latches = s.latches := (rfl)
@[simp] theorem State.setRefCount_enables (s : State) (n : NailNo) (c : Nat) :
    (s.setRefCount n c).enables = s.enables := (rfl)
@[simp] theorem State.setRefCount_settings (s : State) (n : NailNo) (c : Nat) :
    (s.setRefCount n c).settings = s.settings := (rfl)
@[simp] theorem State.setRefCount_freeDraws (s : State) (n : NailNo) (c : Nat) :
    (s.setRefCount n c).freeDraws = s.freeDraws := (rfl)
@[simp] theorem State.setRefCount_pending (s : State) (n : NailNo) (c : Nat) :
    (s.setRefCount n c).pending = s.pending := (rfl)

@[simp] theorem State.setLane_steps (s : State) (l : LaneNo) (v : Lane) : (s.setLane l v).steps = s.steps := (rfl)
@[simp] theorem State.setLane_nails (s : State) (l : LaneNo) (v : Lane) : (s.setLane l v).nails = s.nails := (rfl)
@[simp] theorem State.setLane_timebase (s : State) (l : LaneNo) (v : Lane) :
    (s.setLane l v).timebase = s.timebase := (rfl)
@[simp] theorem State.setLane_run (s : State) (l : LaneNo) (v : Lane) : (s.setLane l v).run = s.run := (rfl)
@[simp] theorem State.setLane_exam (s : State) (l : LaneNo) (v : Lane) : (s.setLane l v).exam = s.exam := (rfl)
@[simp] theorem State.setLane_lanes (s : State) (l : LaneNo) (v : Lane) :
    (s.setLane l v).lanes = s.lanes.set l.val v l.isLt := (rfl)
@[simp] theorem State.setLane_ports (s : State) (l : LaneNo) (v : Lane) : (s.setLane l v).ports = s.ports := (rfl)
@[simp] theorem State.setLane_cards (s : State) (l : LaneNo) (v : Lane) : (s.setLane l v).cards = s.cards := (rfl)
@[simp] theorem State.setLane_link (s : State) (l : LaneNo) (v : Lane) : (s.setLane l v).link = s.link := (rfl)
@[simp] theorem State.setLane_census (s : State) (l : LaneNo) (v : Lane) : (s.setLane l v).census = s.census := (rfl)
@[simp] theorem State.setLane_port (s : State) (l : LaneNo) (v : Lane) : (s.setLane l v).port = s.port := (rfl)
@[simp] theorem State.setLane_transfer (s : State) (l : LaneNo) (v : Lane) :
    (s.setLane l v).transfer = s.transfer := (rfl)
@[simp] theorem State.setLane_shiftedOut (s : State) (l : LaneNo) (v : Lane) :
    (s.setLane l v).shiftedOut = s.shiftedOut := (rfl)
@[simp] theorem State.setLane_latches (s : State) (l : LaneNo) (v : Lane) : (s.setLane l v).latches = s.latches := (rfl)
@[simp] theorem State.setLane_enables (s : State) (l : LaneNo) (v : Lane) : (s.setLane l v).enables = s.enables := (rfl)
@[simp] theorem State.setLane_settings (s : State) (l : LaneNo) (v : Lane) :
    (s.setLane l v).settings = s.settings := (rfl)
@[simp] theorem State.setLane_freeDraws (s : State) (l : LaneNo) (v : Lane) :
    (s.setLane l v).freeDraws = s.freeDraws := (rfl)
@[simp] theorem State.setLane_pending (s : State) (l : LaneNo) (v : Lane) : (s.setLane l v).pending = s.pending := (rfl)

@[simp] theorem State.setPort_steps (s : State) (l : LaneNo) (v : ConverterPort) :
    (s.setPort l v).steps = s.steps := (rfl)
@[simp] theorem State.setPort_nails (s : State) (l : LaneNo) (v : ConverterPort) :
    (s.setPort l v).nails = s.nails := (rfl)
@[simp] theorem State.setPort_timebase (s : State) (l : LaneNo) (v : ConverterPort) :
    (s.setPort l v).timebase = s.timebase := (rfl)
@[simp] theorem State.setPort_run (s : State) (l : LaneNo) (v : ConverterPort) : (s.setPort l v).run = s.run := (rfl)
@[simp] theorem State.setPort_exam (s : State) (l : LaneNo) (v : ConverterPort) : (s.setPort l v).exam = s.exam := (rfl)
@[simp] theorem State.setPort_lanes (s : State) (l : LaneNo) (v : ConverterPort) :
    (s.setPort l v).lanes = s.lanes := (rfl)
@[simp] theorem State.setPort_ports (s : State) (l : LaneNo) (v : ConverterPort) :
    (s.setPort l v).ports = s.ports.set l.val v l.isLt := (rfl)
@[simp] theorem State.setPort_cards (s : State) (l : LaneNo) (v : ConverterPort) :
    (s.setPort l v).cards = s.cards := (rfl)
@[simp] theorem State.setPort_link (s : State) (l : LaneNo) (v : ConverterPort) : (s.setPort l v).link = s.link := (rfl)
@[simp] theorem State.setPort_census (s : State) (l : LaneNo) (v : ConverterPort) :
    (s.setPort l v).census = s.census := (rfl)
@[simp] theorem State.setPort_port (s : State) (l : LaneNo) (v : ConverterPort) : (s.setPort l v).port = s.port := (rfl)
@[simp] theorem State.setPort_transfer (s : State) (l : LaneNo) (v : ConverterPort) :
    (s.setPort l v).transfer = s.transfer := (rfl)
@[simp] theorem State.setPort_shiftedOut (s : State) (l : LaneNo) (v : ConverterPort) :
    (s.setPort l v).shiftedOut = s.shiftedOut := (rfl)
@[simp] theorem State.setPort_latches (s : State) (l : LaneNo) (v : ConverterPort) :
    (s.setPort l v).latches = s.latches := (rfl)
@[simp] theorem State.setPort_enables (s : State) (l : LaneNo) (v : ConverterPort) :
    (s.setPort l v).enables = s.enables := (rfl)
@[simp] theorem State.setPort_settings (s : State) (l : LaneNo) (v : ConverterPort) :
    (s.setPort l v).settings = s.settings := (rfl)
@[simp] theorem State.setPort_freeDraws (s : State) (l : LaneNo) (v : ConverterPort) :
    (s.setPort l v).freeDraws = s.freeDraws := (rfl)
@[simp] theorem State.setPort_pending (s : State) (l : LaneNo) (v : ConverterPort) :
    (s.setPort l v).pending = s.pending := (rfl)

@[simp] theorem State.setCard_steps (s : State) (c : CardNo) (v : CardEntry) : (s.setCard c v).steps = s.steps := (rfl)
@[simp] theorem State.setCard_nails (s : State) (c : CardNo) (v : CardEntry) : (s.setCard c v).nails = s.nails := (rfl)
@[simp] theorem State.setCard_timebase (s : State) (c : CardNo) (v : CardEntry) :
    (s.setCard c v).timebase = s.timebase := (rfl)
@[simp] theorem State.setCard_run (s : State) (c : CardNo) (v : CardEntry) : (s.setCard c v).run = s.run := (rfl)
@[simp] theorem State.setCard_exam (s : State) (c : CardNo) (v : CardEntry) : (s.setCard c v).exam = s.exam := (rfl)
@[simp] theorem State.setCard_lanes (s : State) (c : CardNo) (v : CardEntry) : (s.setCard c v).lanes = s.lanes := (rfl)
@[simp] theorem State.setCard_ports (s : State) (c : CardNo) (v : CardEntry) : (s.setCard c v).ports = s.ports := (rfl)
@[simp] theorem State.setCard_cards (s : State) (c : CardNo) (v : CardEntry) :
    (s.setCard c v).cards = s.cards.set c.val v c.isLt := (rfl)
@[simp] theorem State.setCard_link (s : State) (c : CardNo) (v : CardEntry) : (s.setCard c v).link = s.link := (rfl)
@[simp] theorem State.setCard_census (s : State) (c : CardNo) (v : CardEntry) :
    (s.setCard c v).census = s.census := (rfl)
@[simp] theorem State.setCard_port (s : State) (c : CardNo) (v : CardEntry) : (s.setCard c v).port = s.port := (rfl)
@[simp] theorem State.setCard_transfer (s : State) (c : CardNo) (v : CardEntry) :
    (s.setCard c v).transfer = s.transfer := (rfl)
@[simp] theorem State.setCard_shiftedOut (s : State) (c : CardNo) (v : CardEntry) :
    (s.setCard c v).shiftedOut = s.shiftedOut := (rfl)
@[simp] theorem State.setCard_latches (s : State) (c : CardNo) (v : CardEntry) :
    (s.setCard c v).latches = s.latches := (rfl)
@[simp] theorem State.setCard_enables (s : State) (c : CardNo) (v : CardEntry) :
    (s.setCard c v).enables = s.enables := (rfl)
@[simp] theorem State.setCard_settings (s : State) (c : CardNo) (v : CardEntry) :
    (s.setCard c v).settings = s.settings := (rfl)
@[simp] theorem State.setCard_freeDraws (s : State) (c : CardNo) (v : CardEntry) :
    (s.setCard c v).freeDraws = s.freeDraws := (rfl)
@[simp] theorem State.setCard_pending (s : State) (c : CardNo) (v : CardEntry) :
    (s.setCard c v).pending = s.pending := (rfl)

@[simp] theorem State.setSummary_steps (s : State) (u : RunSummary) : (s.setSummary u).steps = s.steps := (rfl)
@[simp] theorem State.setSummary_nails (s : State) (u : RunSummary) : (s.setSummary u).nails = s.nails := (rfl)
@[simp] theorem State.setSummary_timebase (s : State) (u : RunSummary) : (s.setSummary u).timebase = s.timebase := (rfl)
@[simp] theorem State.setSummary_run (s : State) (u : RunSummary) :
    (s.setSummary u).run = { s.run with summary := u } := (rfl)
@[simp] theorem State.setSummary_exam (s : State) (u : RunSummary) : (s.setSummary u).exam = s.exam := (rfl)
@[simp] theorem State.setSummary_lanes (s : State) (u : RunSummary) : (s.setSummary u).lanes = s.lanes := (rfl)
@[simp] theorem State.setSummary_ports (s : State) (u : RunSummary) : (s.setSummary u).ports = s.ports := (rfl)
@[simp] theorem State.setSummary_cards (s : State) (u : RunSummary) : (s.setSummary u).cards = s.cards := (rfl)
@[simp] theorem State.setSummary_link (s : State) (u : RunSummary) : (s.setSummary u).link = s.link := (rfl)
@[simp] theorem State.setSummary_census (s : State) (u : RunSummary) : (s.setSummary u).census = s.census := (rfl)
@[simp] theorem State.setSummary_port (s : State) (u : RunSummary) : (s.setSummary u).port = s.port := (rfl)
@[simp] theorem State.setSummary_transfer (s : State) (u : RunSummary) : (s.setSummary u).transfer = s.transfer := (rfl)
@[simp] theorem State.setSummary_shiftedOut (s : State) (u : RunSummary) :
    (s.setSummary u).shiftedOut = s.shiftedOut := (rfl)
@[simp] theorem State.setSummary_latches (s : State) (u : RunSummary) : (s.setSummary u).latches = s.latches := (rfl)
@[simp] theorem State.setSummary_enables (s : State) (u : RunSummary) : (s.setSummary u).enables = s.enables := (rfl)
@[simp] theorem State.setSummary_settings (s : State) (u : RunSummary) : (s.setSummary u).settings = s.settings := (rfl)
@[simp] theorem State.setSummary_freeDraws (s : State) (u : RunSummary) :
    (s.setSummary u).freeDraws = s.freeDraws := (rfl)
@[simp] theorem State.setSummary_pending (s : State) (u : RunSummary) : (s.setSummary u).pending = s.pending := (rfl)

@[simp] theorem State.latch_steps (s : State) (c : Condition) : (s.latch c).steps = s.steps := (rfl)
@[simp] theorem State.latch_nails (s : State) (c : Condition) : (s.latch c).nails = s.nails := (rfl)
@[simp] theorem State.latch_timebase (s : State) (c : Condition) : (s.latch c).timebase = s.timebase := (rfl)
@[simp] theorem State.latch_run (s : State) (c : Condition) : (s.latch c).run = s.run := (rfl)
@[simp] theorem State.latch_exam (s : State) (c : Condition) : (s.latch c).exam = s.exam := (rfl)
@[simp] theorem State.latch_lanes (s : State) (c : Condition) : (s.latch c).lanes = s.lanes := (rfl)
@[simp] theorem State.latch_ports (s : State) (c : Condition) : (s.latch c).ports = s.ports := (rfl)
@[simp] theorem State.latch_cards (s : State) (c : Condition) : (s.latch c).cards = s.cards := (rfl)
@[simp] theorem State.latch_link (s : State) (c : Condition) : (s.latch c).link = s.link := (rfl)
@[simp] theorem State.latch_census (s : State) (c : Condition) : (s.latch c).census = s.census := (rfl)
@[simp] theorem State.latch_port (s : State) (c : Condition) : (s.latch c).port = s.port := (rfl)
@[simp] theorem State.latch_transfer (s : State) (c : Condition) : (s.latch c).transfer = s.transfer := (rfl)
@[simp] theorem State.latch_shiftedOut (s : State) (c : Condition) : (s.latch c).shiftedOut = s.shiftedOut := (rfl)
@[simp] theorem State.latch_latches (s : State) (c : Condition) : (s.latch c).latches = s.latches.add c := (rfl)
@[simp] theorem State.latch_enables (s : State) (c : Condition) : (s.latch c).enables = s.enables := (rfl)
@[simp] theorem State.latch_settings (s : State) (c : Condition) : (s.latch c).settings = s.settings := (rfl)
@[simp] theorem State.latch_freeDraws (s : State) (c : Condition) : (s.latch c).freeDraws = s.freeDraws := (rfl)
@[simp] theorem State.latch_pending (s : State) (c : Condition) : (s.latch c).pending = s.pending := (rfl)

@[simp] theorem State.reportOpportunity_steps (s : State) :
    (s.reportOpportunity).steps = s.steps := by unfold State.reportOpportunity; split <;> rfl
@[simp] theorem State.reportOpportunity_nails (s : State) :
    (s.reportOpportunity).nails = s.nails := by unfold State.reportOpportunity; split <;> rfl
@[simp] theorem State.reportOpportunity_timebase (s : State) :
    (s.reportOpportunity).timebase = s.timebase := by unfold State.reportOpportunity; split <;> rfl
@[simp] theorem State.reportOpportunity_run (s : State) :
    (s.reportOpportunity).run = s.run := by unfold State.reportOpportunity; split <;> rfl
@[simp] theorem State.reportOpportunity_exam (s : State) :
    (s.reportOpportunity).exam =
      if s.run.state = .running then .examining else s.exam :=
  by unfold State.reportOpportunity; split <;> rfl
@[simp] theorem State.reportOpportunity_lanes (s : State) :
    (s.reportOpportunity).lanes = s.lanes := by unfold State.reportOpportunity; split <;> rfl
@[simp] theorem State.reportOpportunity_ports (s : State) :
    (s.reportOpportunity).ports = s.ports := by unfold State.reportOpportunity; split <;> rfl
@[simp] theorem State.reportOpportunity_cards (s : State) :
    (s.reportOpportunity).cards = s.cards := by unfold State.reportOpportunity; split <;> rfl
@[simp] theorem State.reportOpportunity_link (s : State) :
    (s.reportOpportunity).link = s.link := by unfold State.reportOpportunity; split <;> rfl
@[simp] theorem State.reportOpportunity_census (s : State) :
    (s.reportOpportunity).census = s.census := by unfold State.reportOpportunity; split <;> rfl
@[simp] theorem State.reportOpportunity_port (s : State) :
    (s.reportOpportunity).port = s.port := by unfold State.reportOpportunity; split <;> rfl
@[simp] theorem State.reportOpportunity_transfer (s : State) :
    (s.reportOpportunity).transfer = s.transfer := by unfold State.reportOpportunity; split <;> rfl
@[simp] theorem State.reportOpportunity_shiftedOut (s : State) :
    (s.reportOpportunity).shiftedOut = s.shiftedOut := by unfold State.reportOpportunity; split <;> rfl
@[simp] theorem State.reportOpportunity_latches (s : State) :
    (s.reportOpportunity).latches = s.latches := by unfold State.reportOpportunity; split <;> rfl
@[simp] theorem State.reportOpportunity_enables (s : State) :
    (s.reportOpportunity).enables = s.enables := by unfold State.reportOpportunity; split <;> rfl
@[simp] theorem State.reportOpportunity_settings (s : State) :
    (s.reportOpportunity).settings = s.settings := by unfold State.reportOpportunity; split <;> rfl
@[simp] theorem State.reportOpportunity_freeDraws (s : State) :
    (s.reportOpportunity).freeDraws = s.freeDraws := by unfold State.reportOpportunity; split <;> rfl
@[simp] theorem State.reportOpportunity_pending (s : State) :
    (s.reportOpportunity).pending = s.pending := by unfold State.reportOpportunity; split <;> rfl

@[simp] theorem State.freeBindings_steps (s : State) (l : LaneNo) : (s.freeBindings l).steps = s.steps := (rfl)
@[simp] theorem State.freeBindings_nails (s : State) (l : LaneNo) :
    (s.freeBindings l).nails = Table.mapAll NailEntry.blank (NailEntry.unbind l) s.nails := (rfl)
@[simp] theorem State.freeBindings_timebase (s : State) (l : LaneNo) : (s.freeBindings l).timebase = s.timebase := (rfl)
@[simp] theorem State.freeBindings_run (s : State) (l : LaneNo) : (s.freeBindings l).run = s.run := (rfl)
@[simp] theorem State.freeBindings_exam (s : State) (l : LaneNo) : (s.freeBindings l).exam = s.exam := (rfl)
@[simp] theorem State.freeBindings_lanes (s : State) (l : LaneNo) : (s.freeBindings l).lanes = s.lanes := (rfl)
@[simp] theorem State.freeBindings_ports (s : State) (l : LaneNo) : (s.freeBindings l).ports = s.ports := (rfl)
@[simp] theorem State.freeBindings_cards (s : State) (l : LaneNo) : (s.freeBindings l).cards = s.cards := (rfl)
@[simp] theorem State.freeBindings_link (s : State) (l : LaneNo) : (s.freeBindings l).link = s.link := (rfl)
@[simp] theorem State.freeBindings_census (s : State) (l : LaneNo) : (s.freeBindings l).census = s.census := (rfl)
@[simp] theorem State.freeBindings_port (s : State) (l : LaneNo) : (s.freeBindings l).port = s.port := (rfl)
@[simp] theorem State.freeBindings_transfer (s : State) (l : LaneNo) : (s.freeBindings l).transfer = s.transfer := (rfl)
@[simp] theorem State.freeBindings_shiftedOut (s : State) (l : LaneNo) :
    (s.freeBindings l).shiftedOut = s.shiftedOut := (rfl)
@[simp] theorem State.freeBindings_latches (s : State) (l : LaneNo) : (s.freeBindings l).latches = s.latches := (rfl)
@[simp] theorem State.freeBindings_enables (s : State) (l : LaneNo) : (s.freeBindings l).enables = s.enables := (rfl)
@[simp] theorem State.freeBindings_settings (s : State) (l : LaneNo) : (s.freeBindings l).settings = s.settings := (rfl)
@[simp] theorem State.freeBindings_freeDraws (s : State) (l : LaneNo) :
    (s.freeBindings l).freeDraws = s.freeDraws := (rfl)
@[simp] theorem State.freeBindings_pending (s : State) (l : LaneNo) : (s.freeBindings l).pending = s.pending := (rfl)

@[simp] theorem State.clearMarks_steps (s : State) :
    (s.clearMarks).steps = Table.mapAll StepSlot.blank StepSlot.unmarked s.steps := (rfl)
@[simp] theorem State.clearMarks_nails (s : State) : (s.clearMarks).nails = s.nails := (rfl)
@[simp] theorem State.clearMarks_timebase (s : State) : (s.clearMarks).timebase = s.timebase := (rfl)
@[simp] theorem State.clearMarks_run (s : State) : (s.clearMarks).run = s.run := (rfl)
@[simp] theorem State.clearMarks_exam (s : State) : (s.clearMarks).exam = s.exam := (rfl)
@[simp] theorem State.clearMarks_lanes (s : State) : (s.clearMarks).lanes = s.lanes := (rfl)
@[simp] theorem State.clearMarks_ports (s : State) : (s.clearMarks).ports = s.ports := (rfl)
@[simp] theorem State.clearMarks_cards (s : State) : (s.clearMarks).cards = s.cards := (rfl)
@[simp] theorem State.clearMarks_link (s : State) : (s.clearMarks).link = s.link := (rfl)
@[simp] theorem State.clearMarks_census (s : State) : (s.clearMarks).census = s.census := (rfl)
@[simp] theorem State.clearMarks_port (s : State) : (s.clearMarks).port = s.port := (rfl)
@[simp] theorem State.clearMarks_transfer (s : State) : (s.clearMarks).transfer = s.transfer := (rfl)
@[simp] theorem State.clearMarks_shiftedOut (s : State) : (s.clearMarks).shiftedOut = s.shiftedOut := (rfl)
@[simp] theorem State.clearMarks_latches (s : State) : (s.clearMarks).latches = s.latches := (rfl)
@[simp] theorem State.clearMarks_enables (s : State) : (s.clearMarks).enables = s.enables := (rfl)
@[simp] theorem State.clearMarks_settings (s : State) : (s.clearMarks).settings = s.settings := (rfl)
@[simp] theorem State.clearMarks_freeDraws (s : State) : (s.clearMarks).freeDraws = s.freeDraws := (rfl)
@[simp] theorem State.clearMarks_pending (s : State) : (s.clearMarks).pending = s.pending := (rfl)

@[simp] theorem State.placeReply_steps (s : State) (r : Reply) : (s.placeReply r).steps = s.steps := (rfl)
@[simp] theorem State.placeReply_nails (s : State) (r : Reply) : (s.placeReply r).nails = s.nails := (rfl)
@[simp] theorem State.placeReply_timebase (s : State) (r : Reply) : (s.placeReply r).timebase = s.timebase := (rfl)
@[simp] theorem State.placeReply_run (s : State) (r : Reply) : (s.placeReply r).run = s.run := (rfl)
@[simp] theorem State.placeReply_exam (s : State) (r : Reply) : (s.placeReply r).exam = s.exam := (rfl)
@[simp] theorem State.placeReply_lanes (s : State) (r : Reply) : (s.placeReply r).lanes = s.lanes := (rfl)
@[simp] theorem State.placeReply_ports (s : State) (r : Reply) : (s.placeReply r).ports = s.ports := (rfl)
@[simp] theorem State.placeReply_cards (s : State) (r : Reply) : (s.placeReply r).cards = s.cards := (rfl)
@[simp] theorem State.placeReply_link (s : State) (r : Reply) : (s.placeReply r).link = s.link := (rfl)
@[simp] theorem State.placeReply_census (s : State) (r : Reply) : (s.placeReply r).census = s.census := (rfl)
@[simp] theorem State.placeReply_port (s : State) (r : Reply) : (s.placeReply r).port = .replying r := (rfl)
@[simp] theorem State.placeReply_transfer (s : State) (r : Reply) : (s.placeReply r).transfer = s.transfer := (rfl)
@[simp] theorem State.placeReply_shiftedOut (s : State) (r : Reply) :
    (s.placeReply r).shiftedOut = s.shiftedOut := (rfl)
@[simp] theorem State.placeReply_latches (s : State) (r : Reply) : (s.placeReply r).latches = s.latches := (rfl)
@[simp] theorem State.placeReply_enables (s : State) (r : Reply) : (s.placeReply r).enables = s.enables := (rfl)
@[simp] theorem State.placeReply_settings (s : State) (r : Reply) : (s.placeReply r).settings = s.settings := (rfl)
@[simp] theorem State.placeReply_freeDraws (s : State) (r : Reply) : (s.placeReply r).freeDraws = s.freeDraws := (rfl)
@[simp] theorem State.placeReply_pending (s : State) (r : Reply) : (s.placeReply r).pending = s.pending := (rfl)

@[simp] theorem State.endTransfer_steps (s : State) (count : Nat) : (s.endTransfer count).steps = s.steps := (rfl)
@[simp] theorem State.endTransfer_nails (s : State) (count : Nat) : (s.endTransfer count).nails = s.nails := (rfl)
@[simp] theorem State.endTransfer_timebase (s : State) (count : Nat) :
    (s.endTransfer count).timebase = s.timebase := (rfl)
@[simp] theorem State.endTransfer_run (s : State) (count : Nat) : (s.endTransfer count).run = s.run := (rfl)
@[simp] theorem State.endTransfer_exam (s : State) (count : Nat) : (s.endTransfer count).exam = s.exam := (rfl)
@[simp] theorem State.endTransfer_lanes (s : State) (count : Nat) : (s.endTransfer count).lanes = s.lanes := (rfl)
@[simp] theorem State.endTransfer_ports (s : State) (count : Nat) : (s.endTransfer count).ports = s.ports := (rfl)
@[simp] theorem State.endTransfer_cards (s : State) (count : Nat) : (s.endTransfer count).cards = s.cards := (rfl)
@[simp] theorem State.endTransfer_link (s : State) (count : Nat) : (s.endTransfer count).link = s.link := (rfl)
@[simp] theorem State.endTransfer_census (s : State) (count : Nat) : (s.endTransfer count).census = s.census := (rfl)
@[simp] theorem State.endTransfer_port (s : State) (count : Nat) : (s.endTransfer count).port = s.port := (rfl)
@[simp] theorem State.endTransfer_transfer (s : State) (count : Nat) : (s.endTransfer count).transfer = none := (rfl)
@[simp] theorem State.endTransfer_shiftedOut (s : State) (count : Nat) :
    (s.endTransfer count).shiftedOut = s.endingTransfer.shifted count := (rfl)
@[simp] theorem State.endTransfer_latches (s : State) (count : Nat) : (s.endTransfer count).latches = s.latches := (rfl)
@[simp] theorem State.endTransfer_enables (s : State) (count : Nat) : (s.endTransfer count).enables = s.enables := (rfl)
@[simp] theorem State.endTransfer_settings (s : State) (count : Nat) :
    (s.endTransfer count).settings = s.settings := (rfl)
@[simp] theorem State.endTransfer_freeDraws (s : State) (count : Nat) :
    (s.endTransfer count).freeDraws = s.freeDraws := (rfl)
@[simp] theorem State.endTransfer_pending (s : State) (count : Nat) : (s.endTransfer count).pending = s.pending := (rfl)

@[simp] theorem State.freeLink_steps (s : State) : (s.freeLink).steps = s.steps := (rfl)
@[simp] theorem State.freeLink_nails (s : State) : (s.freeLink).nails = s.nails := (rfl)
@[simp] theorem State.freeLink_timebase (s : State) : (s.freeLink).timebase = s.timebase := (rfl)
@[simp] theorem State.freeLink_run (s : State) : (s.freeLink).run = s.run := (rfl)
@[simp] theorem State.freeLink_exam (s : State) : (s.freeLink).exam = s.exam := (rfl)
@[simp] theorem State.freeLink_lanes (s : State) : (s.freeLink).lanes = s.lanes := (rfl)
@[simp] theorem State.freeLink_ports (s : State) : (s.freeLink).ports = s.ports := (rfl)
@[simp] theorem State.freeLink_cards (s : State) : (s.freeLink).cards = s.cards := (rfl)
@[simp] theorem State.freeLink_link (s : State) : (s.freeLink).link = { s.link with inFlight := none } := (rfl)
@[simp] theorem State.freeLink_census (s : State) : (s.freeLink).census = s.census := (rfl)
@[simp] theorem State.freeLink_port (s : State) : (s.freeLink).port = s.port := (rfl)
@[simp] theorem State.freeLink_transfer (s : State) : (s.freeLink).transfer = s.transfer := (rfl)
@[simp] theorem State.freeLink_shiftedOut (s : State) : (s.freeLink).shiftedOut = s.shiftedOut := (rfl)
@[simp] theorem State.freeLink_latches (s : State) : (s.freeLink).latches = s.latches := (rfl)
@[simp] theorem State.freeLink_enables (s : State) : (s.freeLink).enables = s.enables := (rfl)
@[simp] theorem State.freeLink_settings (s : State) : (s.freeLink).settings = s.settings := (rfl)
@[simp] theorem State.freeLink_freeDraws (s : State) : (s.freeLink).freeDraws = s.freeDraws := (rfl)
@[simp] theorem State.freeLink_pending (s : State) : (s.freeLink).pending = s.pending := (rfl)

@[simp] theorem State.sendCommand_steps (s : State) (r : Fin 5) (c : LinkCommand) :
    (s.sendCommand r c).steps = s.steps := (rfl)
@[simp] theorem State.sendCommand_nails (s : State) (r : Fin 5) (c : LinkCommand) :
    (s.sendCommand r c).nails = s.nails := (rfl)
@[simp] theorem State.sendCommand_timebase (s : State) (r : Fin 5) (c : LinkCommand) :
    (s.sendCommand r c).timebase = s.timebase := (rfl)
@[simp] theorem State.sendCommand_run (s : State) (r : Fin 5) (c : LinkCommand) :
    (s.sendCommand r c).run = s.run := (rfl)
@[simp] theorem State.sendCommand_exam (s : State) (r : Fin 5) (c : LinkCommand) :
    (s.sendCommand r c).exam = s.exam := (rfl)
@[simp] theorem State.sendCommand_lanes (s : State) (r : Fin 5) (c : LinkCommand) :
    (s.sendCommand r c).lanes = s.lanes := (rfl)
@[simp] theorem State.sendCommand_ports (s : State) (r : Fin 5) (c : LinkCommand) :
    (s.sendCommand r c).ports = s.ports := (rfl)
@[simp] theorem State.sendCommand_cards (s : State) (r : Fin 5) (c : LinkCommand) :
    (s.sendCommand r c).cards = s.cards := (rfl)
@[simp] theorem State.sendCommand_link (s : State) (r : Fin 5) (c : LinkCommand) :
    (s.sendCommand r c).link =
      { lastGranted := r
        inFlight := some { requester := r, command := c, resent := false, timer := s.commandTicks c }
        sentCommand := some c } :=
  (rfl)
@[simp] theorem State.sendCommand_census (s : State) (r : Fin 5) (c : LinkCommand) :
    (s.sendCommand r c).census = s.census := (rfl)
@[simp] theorem State.sendCommand_port (s : State) (r : Fin 5) (c : LinkCommand) :
    (s.sendCommand r c).port = s.port := (rfl)
@[simp] theorem State.sendCommand_transfer (s : State) (r : Fin 5) (c : LinkCommand) :
    (s.sendCommand r c).transfer = s.transfer := (rfl)
@[simp] theorem State.sendCommand_shiftedOut (s : State) (r : Fin 5) (c : LinkCommand) :
    (s.sendCommand r c).shiftedOut = s.shiftedOut := (rfl)
@[simp] theorem State.sendCommand_latches (s : State) (r : Fin 5) (c : LinkCommand) :
    (s.sendCommand r c).latches = s.latches := (rfl)
@[simp] theorem State.sendCommand_enables (s : State) (r : Fin 5) (c : LinkCommand) :
    (s.sendCommand r c).enables = s.enables := (rfl)
@[simp] theorem State.sendCommand_settings (s : State) (r : Fin 5) (c : LinkCommand) :
    (s.sendCommand r c).settings = s.settings := (rfl)
@[simp] theorem State.sendCommand_freeDraws (s : State) (r : Fin 5) (c : LinkCommand) :
    (s.sendCommand r c).freeDraws = s.freeDraws := (rfl)
@[simp] theorem State.sendCommand_pending (s : State) (r : Fin 5) (c : LinkCommand) :
    (s.sendCommand r c).pending = s.pending := (rfl)

/-! ## Entries read after an update of something else -/

@[simp] theorem State.nailAt_setSlot (s : State) (k : Slot) (v : StepSlot) (m : NailNo) :
    (s.setSlot k v).nailAt m = s.nailAt m := (rfl)
@[simp] theorem State.laneAt_setSlot (s : State) (k : Slot) (v : StepSlot) (m : LaneNo) :
    (s.setSlot k v).laneAt m = s.laneAt m := (rfl)
@[simp] theorem State.portAt_setSlot (s : State) (k : Slot) (v : StepSlot) (m : LaneNo) :
    (s.setSlot k v).portAt m = s.portAt m := (rfl)
@[simp] theorem State.cardAt_setSlot (s : State) (k : Slot) (v : StepSlot) (d : CardNo) :
    (s.setSlot k v).cardAt d = s.cardAt d := (rfl)

@[simp] theorem State.nailAt_setRecord (s : State) (k : Slot) (r : StepRecord) (m : NailNo) :
    (s.setRecord k r).nailAt m = s.nailAt m := (rfl)
@[simp] theorem State.laneAt_setRecord (s : State) (k : Slot) (r : StepRecord) (m : LaneNo) :
    (s.setRecord k r).laneAt m = s.laneAt m := (rfl)
@[simp] theorem State.portAt_setRecord (s : State) (k : Slot) (r : StepRecord) (m : LaneNo) :
    (s.setRecord k r).portAt m = s.portAt m := (rfl)
@[simp] theorem State.cardAt_setRecord (s : State) (k : Slot) (r : StepRecord) (d : CardNo) :
    (s.setRecord k r).cardAt d = s.cardAt d := (rfl)

@[simp] theorem State.slotAt_setNail (s : State) (n : NailNo) (e : NailEntry) (j : Slot) :
    (s.setNail n e).slotAt j = s.slotAt j := (rfl)
@[simp] theorem State.recordAt_setNail (s : State) (n : NailNo) (e : NailEntry) (j : Slot) :
    (s.setNail n e).recordAt j = s.recordAt j := (rfl)
@[simp] theorem State.laneAt_setNail (s : State) (n : NailNo) (e : NailEntry) (m : LaneNo) :
    (s.setNail n e).laneAt m = s.laneAt m := (rfl)
@[simp] theorem State.portAt_setNail (s : State) (n : NailNo) (e : NailEntry) (m : LaneNo) :
    (s.setNail n e).portAt m = s.portAt m := (rfl)
@[simp] theorem State.cardAt_setNail (s : State) (n : NailNo) (e : NailEntry) (d : CardNo) :
    (s.setNail n e).cardAt d = s.cardAt d := (rfl)

@[simp] theorem State.slotAt_setRefCount (s : State) (n : NailNo) (c : Nat) (j : Slot) :
    (s.setRefCount n c).slotAt j = s.slotAt j := (rfl)
@[simp] theorem State.recordAt_setRefCount (s : State) (n : NailNo) (c : Nat) (j : Slot) :
    (s.setRefCount n c).recordAt j = s.recordAt j := (rfl)
@[simp] theorem State.laneAt_setRefCount (s : State) (n : NailNo) (c : Nat) (m : LaneNo) :
    (s.setRefCount n c).laneAt m = s.laneAt m := (rfl)
@[simp] theorem State.portAt_setRefCount (s : State) (n : NailNo) (c : Nat) (m : LaneNo) :
    (s.setRefCount n c).portAt m = s.portAt m := (rfl)
@[simp] theorem State.cardAt_setRefCount (s : State) (n : NailNo) (c : Nat) (d : CardNo) :
    (s.setRefCount n c).cardAt d = s.cardAt d := (rfl)

@[simp] theorem State.slotAt_setLane (s : State) (l : LaneNo) (v : Lane) (j : Slot) :
    (s.setLane l v).slotAt j = s.slotAt j := (rfl)
@[simp] theorem State.recordAt_setLane (s : State) (l : LaneNo) (v : Lane) (j : Slot) :
    (s.setLane l v).recordAt j = s.recordAt j := (rfl)
@[simp] theorem State.nailAt_setLane (s : State) (l : LaneNo) (v : Lane) (m : NailNo) :
    (s.setLane l v).nailAt m = s.nailAt m := (rfl)
@[simp] theorem State.portAt_setLane (s : State) (l : LaneNo) (v : Lane) (m : LaneNo) :
    (s.setLane l v).portAt m = s.portAt m := (rfl)
@[simp] theorem State.cardAt_setLane (s : State) (l : LaneNo) (v : Lane) (d : CardNo) :
    (s.setLane l v).cardAt d = s.cardAt d := (rfl)

@[simp] theorem State.slotAt_setPort (s : State) (l : LaneNo) (v : ConverterPort) (j : Slot) :
    (s.setPort l v).slotAt j = s.slotAt j := (rfl)
@[simp] theorem State.recordAt_setPort (s : State) (l : LaneNo) (v : ConverterPort) (j : Slot) :
    (s.setPort l v).recordAt j = s.recordAt j := (rfl)
@[simp] theorem State.nailAt_setPort (s : State) (l : LaneNo) (v : ConverterPort) (m : NailNo) :
    (s.setPort l v).nailAt m = s.nailAt m := (rfl)
@[simp] theorem State.laneAt_setPort (s : State) (l : LaneNo) (v : ConverterPort) (m : LaneNo) :
    (s.setPort l v).laneAt m = s.laneAt m := (rfl)
@[simp] theorem State.cardAt_setPort (s : State) (l : LaneNo) (v : ConverterPort) (d : CardNo) :
    (s.setPort l v).cardAt d = s.cardAt d := (rfl)

@[simp] theorem State.slotAt_setCard (s : State) (c : CardNo) (v : CardEntry) (j : Slot) :
    (s.setCard c v).slotAt j = s.slotAt j := (rfl)
@[simp] theorem State.recordAt_setCard (s : State) (c : CardNo) (v : CardEntry) (j : Slot) :
    (s.setCard c v).recordAt j = s.recordAt j := (rfl)
@[simp] theorem State.nailAt_setCard (s : State) (c : CardNo) (v : CardEntry) (m : NailNo) :
    (s.setCard c v).nailAt m = s.nailAt m := (rfl)
@[simp] theorem State.laneAt_setCard (s : State) (c : CardNo) (v : CardEntry) (m : LaneNo) :
    (s.setCard c v).laneAt m = s.laneAt m := (rfl)
@[simp] theorem State.portAt_setCard (s : State) (c : CardNo) (v : CardEntry) (m : LaneNo) :
    (s.setCard c v).portAt m = s.portAt m := (rfl)

@[simp] theorem State.slotAt_setSummary (s : State) (u : RunSummary) (j : Slot) :
    (s.setSummary u).slotAt j = s.slotAt j := (rfl)
@[simp] theorem State.recordAt_setSummary (s : State) (u : RunSummary) (j : Slot) :
    (s.setSummary u).recordAt j = s.recordAt j := (rfl)
@[simp] theorem State.nailAt_setSummary (s : State) (u : RunSummary) (m : NailNo) :
    (s.setSummary u).nailAt m = s.nailAt m := (rfl)
@[simp] theorem State.laneAt_setSummary (s : State) (u : RunSummary) (m : LaneNo) :
    (s.setSummary u).laneAt m = s.laneAt m := (rfl)
@[simp] theorem State.portAt_setSummary (s : State) (u : RunSummary) (m : LaneNo) :
    (s.setSummary u).portAt m = s.portAt m := (rfl)
@[simp] theorem State.cardAt_setSummary (s : State) (u : RunSummary) (d : CardNo) :
    (s.setSummary u).cardAt d = s.cardAt d := (rfl)

@[simp] theorem State.slotAt_latch (s : State) (c : Condition) (j : Slot) : (s.latch c).slotAt j = s.slotAt j := (rfl)
@[simp] theorem State.recordAt_latch (s : State) (c : Condition) (j : Slot) :
    (s.latch c).recordAt j = s.recordAt j := (rfl)
@[simp] theorem State.nailAt_latch (s : State) (c : Condition) (m : NailNo) : (s.latch c).nailAt m = s.nailAt m := (rfl)
@[simp] theorem State.laneAt_latch (s : State) (c : Condition) (m : LaneNo) : (s.latch c).laneAt m = s.laneAt m := (rfl)
@[simp] theorem State.portAt_latch (s : State) (c : Condition) (m : LaneNo) : (s.latch c).portAt m = s.portAt m := (rfl)
@[simp] theorem State.cardAt_latch (s : State) (c : Condition) (d : CardNo) : (s.latch c).cardAt d = s.cardAt d := (rfl)

@[simp] theorem State.slotAt_reportOpportunity (s : State) (j : Slot) :
    (s.reportOpportunity).slotAt j = s.slotAt j := by unfold State.reportOpportunity; split <;> rfl
@[simp] theorem State.recordAt_reportOpportunity (s : State) (j : Slot) :
    (s.reportOpportunity).recordAt j = s.recordAt j := by unfold State.reportOpportunity; split <;> rfl
@[simp] theorem State.nailAt_reportOpportunity (s : State) (m : NailNo) :
    (s.reportOpportunity).nailAt m = s.nailAt m := by unfold State.reportOpportunity; split <;> rfl
@[simp] theorem State.laneAt_reportOpportunity (s : State) (m : LaneNo) :
    (s.reportOpportunity).laneAt m = s.laneAt m := by unfold State.reportOpportunity; split <;> rfl
@[simp] theorem State.portAt_reportOpportunity (s : State) (m : LaneNo) :
    (s.reportOpportunity).portAt m = s.portAt m := by unfold State.reportOpportunity; split <;> rfl
@[simp] theorem State.cardAt_reportOpportunity (s : State) (d : CardNo) :
    (s.reportOpportunity).cardAt d = s.cardAt d := by unfold State.reportOpportunity; split <;> rfl

@[simp] theorem State.slotAt_freeBindings (s : State) (l : LaneNo) (j : Slot) :
    (s.freeBindings l).slotAt j = s.slotAt j := (rfl)
@[simp] theorem State.recordAt_freeBindings (s : State) (l : LaneNo) (j : Slot) :
    (s.freeBindings l).recordAt j = s.recordAt j := (rfl)
@[simp] theorem State.laneAt_freeBindings (s : State) (l : LaneNo) (m : LaneNo) :
    (s.freeBindings l).laneAt m = s.laneAt m := (rfl)
@[simp] theorem State.portAt_freeBindings (s : State) (l : LaneNo) (m : LaneNo) :
    (s.freeBindings l).portAt m = s.portAt m := (rfl)
@[simp] theorem State.cardAt_freeBindings (s : State) (l : LaneNo) (d : CardNo) :
    (s.freeBindings l).cardAt d = s.cardAt d := (rfl)

@[simp] theorem State.nailAt_clearMarks (s : State) (m : NailNo) : (s.clearMarks).nailAt m = s.nailAt m := (rfl)
@[simp] theorem State.laneAt_clearMarks (s : State) (m : LaneNo) : (s.clearMarks).laneAt m = s.laneAt m := (rfl)
@[simp] theorem State.portAt_clearMarks (s : State) (m : LaneNo) : (s.clearMarks).portAt m = s.portAt m := (rfl)
@[simp] theorem State.cardAt_clearMarks (s : State) (d : CardNo) : (s.clearMarks).cardAt d = s.cardAt d := (rfl)

@[simp] theorem State.slotAt_placeReply (s : State) (r : Reply) (j : Slot) :
    (s.placeReply r).slotAt j = s.slotAt j := (rfl)
@[simp] theorem State.recordAt_placeReply (s : State) (r : Reply) (j : Slot) :
    (s.placeReply r).recordAt j = s.recordAt j := (rfl)
@[simp] theorem State.nailAt_placeReply (s : State) (r : Reply) (m : NailNo) :
    (s.placeReply r).nailAt m = s.nailAt m := (rfl)
@[simp] theorem State.laneAt_placeReply (s : State) (r : Reply) (m : LaneNo) :
    (s.placeReply r).laneAt m = s.laneAt m := (rfl)
@[simp] theorem State.portAt_placeReply (s : State) (r : Reply) (m : LaneNo) :
    (s.placeReply r).portAt m = s.portAt m := (rfl)
@[simp] theorem State.cardAt_placeReply (s : State) (r : Reply) (d : CardNo) :
    (s.placeReply r).cardAt d = s.cardAt d := (rfl)

@[simp] theorem State.slotAt_endTransfer (s : State) (count : Nat) (j : Slot) :
    (s.endTransfer count).slotAt j = s.slotAt j := (rfl)
@[simp] theorem State.recordAt_endTransfer (s : State) (count : Nat) (j : Slot) :
    (s.endTransfer count).recordAt j = s.recordAt j := (rfl)
@[simp] theorem State.nailAt_endTransfer (s : State) (count : Nat) (m : NailNo) :
    (s.endTransfer count).nailAt m = s.nailAt m := (rfl)
@[simp] theorem State.laneAt_endTransfer (s : State) (count : Nat) (m : LaneNo) :
    (s.endTransfer count).laneAt m = s.laneAt m := (rfl)
@[simp] theorem State.portAt_endTransfer (s : State) (count : Nat) (m : LaneNo) :
    (s.endTransfer count).portAt m = s.portAt m := (rfl)
@[simp] theorem State.cardAt_endTransfer (s : State) (count : Nat) (d : CardNo) :
    (s.endTransfer count).cardAt d = s.cardAt d := (rfl)

@[simp] theorem State.slotAt_freeLink (s : State) (j : Slot) : (s.freeLink).slotAt j = s.slotAt j := (rfl)
@[simp] theorem State.recordAt_freeLink (s : State) (j : Slot) : (s.freeLink).recordAt j = s.recordAt j := (rfl)
@[simp] theorem State.nailAt_freeLink (s : State) (m : NailNo) : (s.freeLink).nailAt m = s.nailAt m := (rfl)
@[simp] theorem State.laneAt_freeLink (s : State) (m : LaneNo) : (s.freeLink).laneAt m = s.laneAt m := (rfl)
@[simp] theorem State.portAt_freeLink (s : State) (m : LaneNo) : (s.freeLink).portAt m = s.portAt m := (rfl)
@[simp] theorem State.cardAt_freeLink (s : State) (d : CardNo) : (s.freeLink).cardAt d = s.cardAt d := (rfl)

@[simp] theorem State.slotAt_sendCommand (s : State) (r : Fin 5) (c : LinkCommand) (j : Slot) :
    (s.sendCommand r c).slotAt j = s.slotAt j := (rfl)
@[simp] theorem State.recordAt_sendCommand (s : State) (r : Fin 5) (c : LinkCommand) (j : Slot) :
    (s.sendCommand r c).recordAt j = s.recordAt j := (rfl)
@[simp] theorem State.nailAt_sendCommand (s : State) (r : Fin 5) (c : LinkCommand) (m : NailNo) :
    (s.sendCommand r c).nailAt m = s.nailAt m := (rfl)
@[simp] theorem State.laneAt_sendCommand (s : State) (r : Fin 5) (c : LinkCommand) (m : LaneNo) :
    (s.sendCommand r c).laneAt m = s.laneAt m := (rfl)
@[simp] theorem State.portAt_sendCommand (s : State) (r : Fin 5) (c : LinkCommand) (m : LaneNo) :
    (s.sendCommand r c).portAt m = s.portAt m := (rfl)
@[simp] theorem State.cardAt_sendCommand (s : State) (r : Fin 5) (c : LinkCommand) (d : CardNo) :
    (s.sendCommand r c).cardAt d = s.cardAt d := (rfl)

/-! ## Entries read after an update of themselves -/

theorem State.slotAt_setSlot (s : State) (k : Slot) (v : StepSlot) (j : Slot) :
    (s.setSlot k v).slotAt j = if j = k then v else s.slotAt j := Table.get_set _ _ _ _ _

@[simp] theorem State.slotAt_setSlot_self (s : State) (k : Slot) (v : StepSlot) : (s.setSlot k v).slotAt k = v := by
  simp [State.slotAt_setSlot]

theorem State.slotAt_setRecord (s : State) (k : Slot) (r : StepRecord) (j : Slot) :
    (s.setRecord k r).slotAt j = if j = k then { runMark := (s.slotAt k).runMark, record := some r } else s.slotAt j :=
  Table.get_set _ _ _ _ _

@[simp] theorem State.slotAt_setRecord_self (s : State) (k : Slot) (r : StepRecord) :
    (s.setRecord k r).slotAt k = { runMark := (s.slotAt k).runMark, record := some r } := by
  simp [State.slotAt_setRecord]

theorem State.recordAt_setSlot (s : State) (k : Slot) (v : StepSlot) (j : Slot) :
    (s.setSlot k v).recordAt j = if j = k then v.record else s.recordAt j := by
  unfold State.recordAt; rw [State.slotAt_setSlot]; split <;> rfl

theorem State.recordAt_setRecord (s : State) (k : Slot) (r : StepRecord) (j : Slot) :
    (s.setRecord k r).recordAt j = if j = k then some r else s.recordAt j := by
  unfold State.recordAt; rw [State.slotAt_setRecord]; split <;> rfl

theorem State.nailAt_setNail (s : State) (n : NailNo) (e : NailEntry) (m : NailNo) :
    (s.setNail n e).nailAt m = if m = n then e else s.nailAt m := Table.get_set _ _ _ _ _

@[simp] theorem State.nailAt_setNail_self (s : State) (n : NailNo) (e : NailEntry) : (s.setNail n e).nailAt n = e := by
  simp [State.nailAt_setNail]

theorem State.nailAt_setRefCount (s : State) (n : NailNo) (c : Nat) (m : NailNo) :
    (s.setRefCount n c).nailAt m = if m = n then { s.nailAt n with refCount := c } else s.nailAt m :=
  Table.get_set _ _ _ _ _

theorem State.laneAt_setLane (s : State) (l : LaneNo) (v : Lane) (m : LaneNo) :
    (s.setLane l v).laneAt m = if m = l then v else s.laneAt m := by
  simp only [State.laneAt, State.setLane, Fin.getElem_fin, Vector.getElem_set, Fin.val_inj, eq_comm]

@[simp] theorem State.laneAt_setLane_self (s : State) (l : LaneNo) (v : Lane) : (s.setLane l v).laneAt l = v := by
  simp [State.laneAt_setLane]

theorem State.portAt_setPort (s : State) (l : LaneNo) (v : ConverterPort) (m : LaneNo) :
    (s.setPort l v).portAt m = if m = l then v else s.portAt m := by
  simp only [State.portAt, State.setPort, Fin.getElem_fin, Vector.getElem_set, Fin.val_inj, eq_comm]

@[simp] theorem State.portAt_setPort_self (s : State) (l : LaneNo) (v : ConverterPort) :
    (s.setPort l v).portAt l = v := by
  simp [State.portAt_setPort]

theorem State.cardAt_setCard (s : State) (c : CardNo) (v : CardEntry) (d : CardNo) :
    (s.setCard c v).cardAt d = if d = c then v else s.cardAt d := by
  simp only [State.cardAt, State.setCard, Fin.getElem_fin, Vector.getElem_set, Fin.val_inj, eq_comm]

@[simp] theorem State.cardAt_setCard_self (s : State) (c : CardNo) (v : CardEntry) : (s.setCard c v).cardAt c = v := by
  simp [State.cardAt_setCard]

/-! ## Fields from the readers -/

/-- The lanes are the same when every lane reads the same. -/
theorem State.lanes_eq_of_laneAt {s t : State} (h : ∀ l, t.laneAt l = s.laneAt l) : t.lanes = s.lanes := by
  apply Vector.ext; intro i hi; exact h ⟨i, hi⟩

/-- The converter ports are the same when every port reads the same. -/
theorem State.ports_eq_of_portAt {s t : State} (h : ∀ l, t.portAt l = s.portAt l) : t.ports = s.ports := by
  apply Vector.ext; intro i hi; exact h ⟨i, hi⟩

/-- The cards are the same when every card reads the same. -/
theorem State.cards_eq_of_cardAt {s t : State} (h : ∀ c, t.cardAt c = s.cardAt c) : t.cards = s.cards := by
  apply Vector.ext; intro i hi; exact h ⟨i, hi⟩

/-! ## Readers that depend on some fields only -/

theorem State.slotAt_congr {s t : State} (h : t.steps = s.steps) (k : Slot) : t.slotAt k = s.slotAt k := by
  simp only [State.slotAt, h]

theorem State.recordAt_congr {s t : State} (h : t.steps = s.steps) (k : Slot) : t.recordAt k = s.recordAt k := by
  simp only [State.recordAt, State.slotAt, h]

theorem State.nailAt_congr {s t : State} (h : t.nails = s.nails) (n : NailNo) : t.nailAt n = s.nailAt n := by
  simp only [State.nailAt, h]

theorem State.laneAt_congr {s t : State} (h : t.lanes = s.lanes) (l : LaneNo) : t.laneAt l = s.laneAt l := by
  simp only [State.laneAt, h]

theorem State.portAt_congr {s t : State} (h : t.ports = s.ports) (l : LaneNo) : t.portAt l = s.portAt l := by
  simp only [State.portAt, h]

theorem State.cardAt_congr {s t : State} (h : t.cards = s.cards) (c : CardNo) : t.cardAt c = s.cardAt c := by
  simp only [State.cardAt, h]

theorem State.tick_congr {s t : State} (h : t.timebase = s.timebase) : t.tick = s.tick := by simp only [State.tick, h]

theorem State.nailOnline_congr {s t : State} (h : t.cards = s.cards) (n : NailNo) :
    t.nailOnline n = s.nailOnline n := by
  unfold State.nailOnline; rw [State.cardAt_congr h]

theorem State.allLanesIdle_congr {s t : State} (h : t.lanes = s.lanes) : t.allLanesIdle = s.allLanesIdle := by
  unfold State.allLanesIdle; simp only [State.laneAt_congr h]

theorem State.heldBy_congr {s t : State} (hl : t.lanes = s.lanes) (hs : t.steps = s.steps) (l : LaneNo) :
    t.heldBy l = s.heldBy l := by
  simp only [State.heldBy, State.laneAt, State.recordAt, State.slotAt, hl, hs]

theorem State.heldNails_congr {s t : State} (hl : t.lanes = s.lanes) (hs : t.steps = s.steps) (l : LaneNo) :
    t.heldNails l = s.heldNails l := by
  simp only [State.heldNails, State.heldBy_congr hl hs]

theorem State.candidates_congr {s t : State} (hs : t.steps = s.steps)
    (hm : t.run.summary.mode = s.run.summary.mode) : t.candidates = s.candidates := by
  simp only [State.candidates, hs, hm]

theorem State.notRunCount_congr {s t : State} (hs : t.steps = s.steps)
    (hm : t.run.summary.mode = s.run.summary.mode) : t.notRunCount = s.notRunCount := by
  simp only [State.notRunCount, hs, hm]

theorem State.waits_congr {s t : State} (hl : t.lanes = s.lanes) (hc : t.census = s.census) (r : Fin 5) :
    t.waits r = s.waits r := by
  unfold State.waits; simp only [State.laneAt_congr hl, hc]

theorem State.laneCommand_congr {s t : State} (hl : t.lanes = s.lanes) (hs : t.steps = s.steps) (l : LaneNo) :
    t.laneCommand l = s.laneCommand l := by
  simp only [State.laneCommand, State.heldNails_congr hl hs, State.laneAt_congr hl]

/-- Every lane is IDLE exactly when the conjunction says so. -/
theorem State.allLanesIdle_iff (s : State) : s.allLanesIdle = true ↔ ∀ l, (s.laneAt l).phase = .idle := by
  unfold State.allLanesIdle allLanes
  simp only [List.all_cons, List.all_nil, Bool.and_true, Bool.and_eq_true, decide_eq_true_eq]
  constructor
  · rintro ⟨h0, h1, h2, h3⟩ l; fin_cases l <;> assumption
  · intro h; exact ⟨h 0, h 1, h 2, h 3⟩

/-! ## Conditions -/

/-- Adding a condition sets it and keeps the others. -/
theorem Conditions.has_add (m : Conditions) (c d : Condition) : (m.add c).has d = (decide (d = c) || m.has d) := by
  cases c <;> cases d <;> simp [Conditions.add, Conditions.has]

/-- The conditions of one set without another's. -/
theorem Conditions.has_without (m n : Conditions) (c : Condition) : (m.without n).has c = (m.has c && !n.has c) := by
  cases c <;> rfl

/-- Bits 6 and 7 of a byte name no condition. -/
theorem Conditions.toByte_ofByte (b : Byte) : (Conditions.ofByte b).toByte = b &&& 0x3F := by
  revert b; decide

end Sys2Proof.Machine
end

