-- ==== Sys2Proof/Laws/Ops.lean ====
section
/-! SUPPORT. Laws of the shared operations over the records (Machine/Ops.lean): what each can change, and what its entries
read as afterwards. -/

namespace Sys2Proof.Machine

/-! ## Nail lists -/

theorem NailList.names_iff (l : NailList) (n : NailNo) : l.names n = true ↔ n ∈ l.toList := by
  simp [NailList.names]

/-- The nails of a list one by one. -/
theorem NailList.mem_toList (l : NailList) (n : NailNo) :
    n ∈ l.toList ↔ n = l.srcHi ∨ n = l.srcLo ∨ l.snsHi = some n ∨ l.snsLo = some n ∨ n ∈ l.guards := by
  simp only [NailList.toList, NailList.entries, List.map_append, List.map_cons, List.map_nil, List.map_map,
    List.mem_append, List.mem_cons, List.not_mem_nil, or_false, List.mem_map, Option.mem_toList, Function.comp_apply,
    exists_eq_right]
  tauto

/-- A list names a nail in a role exactly when the entry is listed, if it names no nail twice. -/
theorem NailList.roleOf_eq_some (l : NailList) (h : l.toList.Nodup) (n : NailNo) (role : Role) :
    l.roleOf n = some role ↔ (role, n) ∈ l.entries := by
  unfold NailList.roleOf
  unfold NailList.toList at h
  generalize l.entries = es at h ⊢
  induction es with
  | nil => simp
  | cons e es ih =>
    obtain ⟨role', m⟩ := e
    simp only [List.map_cons, List.nodup_cons, List.mem_map, Prod.exists, exists_eq_right, not_exists] at h
    by_cases hm : m = n
    · subst hm
      simp only [List.find?_cons, decide_true, Option.map_some, Option.some.injEq, List.mem_cons, Prod.mk.injEq, and_true]
      exact ⟨fun hr => .inl hr.symm, fun hr => hr.elim Eq.symm fun hx => absurd hx (h.1 role)⟩
    · simp [hm, ih h.2, Ne.symm hm]

/-- A list that does not name a nail gives it no role. -/
theorem NailList.roleOf_eq_none (l : NailList) (n : NailNo) : l.roleOf n = none ↔ l.names n = false := by
  rw [Bool.eq_false_iff, Ne, NailList.names_iff]
  simp only [NailList.roleOf, NailList.toList, Option.map_eq_none_iff, List.find?_eq_none, decide_eq_true_eq, List.mem_map,
    not_exists, not_and]

/-! ## What a lane holds -/

/-- A lane holds a slot and its record. -/
theorem State.heldBy_eq_some (s : State) (l : LaneNo) (k : Slot) (r : StepRecord) :
    s.heldBy l = some (k, r) ↔ (s.laneAt l).heldSlot = some k ∧ s.recordAt k = some r := by
  unfold State.heldBy
  cases h : (s.laneAt l).heldSlot with
  | none => simp
  | some j =>
    simp only [Option.map_eq_some_iff, Prod.mk.injEq, Option.some.injEq]
    constructor
    · rintro ⟨_, hr, rfl, rfl⟩; exact ⟨rfl, hr⟩
    · rintro ⟨rfl, hr⟩; exact ⟨r, hr, rfl, rfl⟩

theorem State.heldNails_of_heldBy {s : State} {l : LaneNo} {k : Slot} {r : StepRecord} (h : s.heldBy l = some (k, r)) :
    s.heldNails l = r.program.nails.entries := by
  unfold State.heldNails; rw [h]

/-! ## Opportunities -/

/-- A dispatch opportunity changes the examination state alone (R92, R93). -/
theorem State.reportOpportunity_eq (s : State) :
    s.reportOpportunity = { s with exam := examAfter true s.run.state s.exam } := by
  unfold State.reportOpportunity examAfter; split <;> simp_all

/-! ## Reference counts (R31) -/

/-- Raising counts changes the Nail Map alone. -/
theorem State.raiseRefs_frame (ns : List NailNo) (s : State) :
    s.raiseRefs ns = { s with nails := (s.raiseRefs ns).nails } := by
  induction ns generalizing s with
  | nil => rfl
  | cons n ns ih => rw [State.raiseRefs]; rw [ih]; rfl

/-- Lowering counts changes the Nail Map alone. -/
theorem State.lowerRefs_frame (ns : List NailNo) (s : State) :
    s.lowerRefs ns = { s with nails := (s.lowerRefs ns).nails } := by
  induction ns generalizing s with
  | nil => rfl
  | cons n ns ih => rw [State.lowerRefs]; rw [ih]; rfl

/-- Each nail's count rises by the number of times it is listed. -/
theorem State.nailAt_raiseRefs (ns : List NailNo) (s : State) (m : NailNo) :
    (s.raiseRefs ns).nailAt m = { s.nailAt m with refCount := (s.nailAt m).refCount + ns.count m } := by
  induction ns generalizing s with
  | nil => simp [State.raiseRefs]
  | cons n ns ih =>
    rw [State.raiseRefs, ih, State.nailAt_setRefCount]
    by_cases h : m = n
    · subst h; simp only [if_true, List.count_cons_self]; congr 1; omega
    · simp [h, Ne.symm h]

/-- Each nail's count falls by the number of times it is listed. -/
theorem State.nailAt_lowerRefs (ns : List NailNo) (s : State) (m : NailNo) :
    (s.lowerRefs ns).nailAt m = { s.nailAt m with refCount := (s.nailAt m).refCount - ns.count m } := by
  induction ns generalizing s with
  | nil => simp [State.lowerRefs]
  | cons n ns ih =>
    rw [State.lowerRefs, ih, State.nailAt_setRefCount]
    by_cases h : m = n
    · subst h; simp [Nat.sub_sub, Nat.add_comm]
    · simp [h, Ne.symm h]

@[simp] theorem State.slotAt_raiseRefs (ns : List NailNo) (s : State) (k : Slot) :
    (s.raiseRefs ns).slotAt k = s.slotAt k := State.slotAt_congr (by rw [State.raiseRefs_frame]) k

@[simp] theorem State.slotAt_lowerRefs (ns : List NailNo) (s : State) (k : Slot) :
    (s.lowerRefs ns).slotAt k = s.slotAt k := State.slotAt_congr (by rw [State.lowerRefs_frame]) k

/-- In a list that names no nail twice, each is counted once. -/
theorem NailList.count_toList (l : NailList) (h : l.toList.Nodup) (n : NailNo) :
    l.toList.count n = if l.names n then 1 else 0 := by
  by_cases hn : n ∈ l.toList
  · rw [(NailList.names_iff l n).mpr hn, List.count_eq_one_of_mem h hn]; rfl
  · have : l.names n = false := by rw [Bool.eq_false_iff]; exact fun h' => hn ((NailList.names_iff l n).mp h')
    rw [this, List.count_eq_zero_of_not_mem hn]; rfl

/-- The nails of one list that another does not name, each counted once. -/
theorem NailList.count_filter (l o : NailList) (h : l.toList.Nodup) (n : NailNo) :
    (l.toList.filter (fun n => !o.names n)).count n = if l.names n && !o.names n then 1 else 0 := by
  by_cases ho : o.names n = true
  · rw [List.count_eq_zero_of_not_mem (by simp [ho])]; simp [ho]
  · rw [List.count_filter (by simpa using ho), NailList.count_toList l h]; simp [Bool.not_eq_true _ ▸ ho]

/-- A change of nail list changes the Nail Map alone. -/
theorem State.moveRefs_frame (s : State) (b a : NailList) :
    s.moveRefs b a = { s with nails := (s.moveRefs b a).nails } := by
  unfold State.moveRefs; rw [State.raiseRefs_frame, State.lowerRefs_frame]

@[simp] theorem State.slotAt_moveRefs (s : State) (b a : NailList) (k : Slot) :
    (s.moveRefs b a).slotAt k = s.slotAt k := by
  unfold State.moveRefs; rw [State.slotAt_raiseRefs, State.slotAt_lowerRefs]

/-- A change between lists that name no nail twice: nails that leave lose one, nails that enter gain one (R16). -/
theorem State.nailAt_moveRefs (s : State) (b a : NailList) (hb : b.toList.Nodup) (ha : a.toList.Nodup) (n : NailNo) :
    (s.moveRefs b a).nailAt n =
      { s.nailAt n with
        refCount := (s.nailAt n).refCount - (if b.names n && !a.names n then 1 else 0)
          + (if a.names n && !b.names n then 1 else 0) } := by
  unfold State.moveRefs
  rw [State.nailAt_raiseRefs, State.nailAt_lowerRefs, NailList.count_filter b a hb, NailList.count_filter a b ha]

/-- A change from a list to itself changes nothing. -/
theorem State.moveRefs_self (s : State) (l : NailList) : s.moveRefs l l = s := by
  have h : l.toList.filter (fun n => !l.names n) = [] := by
    rw [List.filter_eq_nil_iff]; intro n hn; simp [(NailList.names_iff l n).mpr hn]
  unfold State.moveRefs; rw [h]; rfl

/-- A change of nail list keeps all of an entry but its count. -/
theorem State.nailAt_moveRefs_rest (s : State) (b a : NailList) (n : NailNo) :
    ∃ c, (s.moveRefs b a).nailAt n = { s.nailAt n with refCount := c } := by
  unfold State.moveRefs; rw [State.nailAt_raiseRefs, State.nailAt_lowerRefs]; exact ⟨_, rfl⟩

/-- Whether a list names a RETIRED nail depends on the nails' states alone. -/
theorem State.anyRetired_congr {s t : State} (h : ∀ n, (t.nailAt n).state = (s.nailAt n).state) (l : NailList) :
    t.anyRetired l = s.anyRetired l := by
  unfold State.anyRetired; simp only [h]

/-! ## The canonical form (log 10) -/

theorem State.canonical_iff (s : State) :
    s.canonical = true ↔ Table.wf StepSlot.blank s.steps = true ∧ Table.wf NailEntry.blank s.nails = true := by
  simp [State.canonical]

/-- The canonical form depends on the two tables alone. -/
theorem State.canonical_congr {s t : State} (hs : t.steps = s.steps) (hn : t.nails = s.nails) :
    t.canonical = s.canonical := by
  unfold State.canonical; rw [hs, hn]

@[simp] theorem State.canonical_latch (s : State) (c : Condition) : (s.latch c).canonical = s.canonical := (rfl)

@[simp] theorem State.canonical_setSummary (s : State) (m : RunSummary) : (s.setSummary m).canonical = s.canonical :=
  (rfl)

@[simp] theorem State.canonical_setLane (s : State) (l : LaneNo) (v : Lane) : (s.setLane l v).canonical = s.canonical :=
  (rfl)

@[simp] theorem State.canonical_setPort (s : State) (l : LaneNo) (v : ConverterPort) :
    (s.setPort l v).canonical = s.canonical := (rfl)

@[simp] theorem State.canonical_setCard (s : State) (c : CardNo) (v : CardEntry) :
    (s.setCard c v).canonical = s.canonical := (rfl)

@[simp] theorem State.canonical_placeReply (s : State) (r : Reply) : (s.placeReply r).canonical = s.canonical := (rfl)

@[simp] theorem State.canonical_endTransfer (s : State) (count : Nat) :
    (s.endTransfer count).canonical = s.canonical := (rfl)

@[simp] theorem State.canonical_reportOpportunity (s : State) : s.reportOpportunity.canonical = s.canonical := by
  rw [State.reportOpportunity_eq]; rfl

theorem State.canonical_setSlot {s : State} (h : s.canonical = true) (k : Slot) (v : StepSlot) :
    (s.setSlot k v).canonical = true := by
  rw [State.canonical_iff] at h ⊢; exact ⟨Table.wf_set h.1 k v, h.2⟩

theorem State.canonical_setRecord {s : State} (h : s.canonical = true) (k : Slot) (r : StepRecord) :
    (s.setRecord k r).canonical = true := State.canonical_setSlot h k _

theorem State.canonical_setNail {s : State} (h : s.canonical = true) (n : NailNo) (e : NailEntry) :
    (s.setNail n e).canonical = true := by
  rw [State.canonical_iff] at h ⊢; exact ⟨h.1, Table.wf_set h.2 n e⟩

theorem State.canonical_raiseRefs (ns : List NailNo) {s : State} (h : s.canonical = true) :
    (s.raiseRefs ns).canonical = true := by
  induction ns generalizing s with
  | nil => exact h
  | cons n ns ih => exact ih (State.canonical_setNail h _ _)

theorem State.canonical_lowerRefs (ns : List NailNo) {s : State} (h : s.canonical = true) :
    (s.lowerRefs ns).canonical = true := by
  induction ns generalizing s with
  | nil => exact h
  | cons n ns ih => exact ih (State.canonical_setNail h _ _)

theorem State.canonical_moveRefs {s : State} (h : s.canonical = true) (b a : NailList) :
    (s.moveRefs b a).canonical = true := State.canonical_raiseRefs _ (State.canonical_lowerRefs _ h)

theorem State.canonical_freeBindings {s : State} (h : s.canonical = true) (l : LaneNo) :
    (s.freeBindings l).canonical = true := by
  rw [State.canonical_iff] at h ⊢; exact ⟨h.1, Table.wf_mapAll _ h.2⟩

theorem State.canonical_clearMarks {s : State} (h : s.canonical = true) : s.clearMarks.canonical = true := by
  rw [State.canonical_iff] at h ⊢; exact ⟨Table.wf_mapAll _ h.1, h.2⟩

/-! ## Whole-table changes -/

/-- In a canonical Nail Map, the bindings of a lane are gone from every entry and all else stays (R38). -/
theorem State.nailAt_freeBindings {s : State} (h : s.canonical = true) (l : LaneNo) (n : NailNo) :
    (s.freeBindings l).nailAt n = NailEntry.unbind l (s.nailAt n) := by
  have hb : NailEntry.unbind l NailEntry.blank = NailEntry.blank := by revert l; decide
  exact Table.get_mapAll _ _ hb _ (((Table.wf_iff _ _).mp ((State.canonical_iff s).mp h).2).1) n

/-- In a canonical Step Table, every run mark is cleared and all else stays (R7). -/
theorem State.slotAt_clearMarks {s : State} (h : s.canonical = true) (k : Slot) :
    s.clearMarks.slotAt k = { s.slotAt k with runMark := false } :=
  Table.get_mapAll _ _ (by decide) _ (((Table.wf_iff _ _).mp ((State.canonical_iff s).mp h).1).1) k

/-- A slot that is not FREE is listed. -/
theorem State.listed_of_recordAt {s : State} {k : Slot} {r : StepRecord} (h : s.recordAt k = some r) :
    (k, s.slotAt k) ∈ s.steps := by
  rcases Table.get_default_or_listed StepSlot.blank s.steps k with h0 | h0
  · have : s.slotAt k = StepSlot.blank := h0
    simp [State.recordAt, this, StepSlot.blank] at h
  · exact h0

/-- In a canonical Step Table, a listed slot is what its number reads. -/
theorem State.slotAt_of_listed {s : State} (h : s.canonical = true) {k : Slot} {v : StepSlot} (hm : (k, v) ∈ s.steps) :
    s.slotAt k = v :=
  ((Table.mem_iff_get ((State.canonical_iff s).mp h).1 k v).mp hm).1

/-- In a canonical Step Table the candidates are the slots that read as candidates (R68). -/
theorem State.slot_mem_candidates {s : State} (h : s.canonical = true) (k : Slot) :
    k ∈ s.candidates ↔ (s.slotAt k).isCandidate s.run.summary.mode = true := by
  unfold State.candidates
  simp only [List.mem_map, List.mem_filter, Prod.exists, exists_and_right, exists_eq_right]
  constructor
  · rintro ⟨v, hm, hc⟩; rwa [State.slotAt_of_listed h hm]
  · intro hc
    cases hr : s.recordAt k with
    | none =>
      have : (s.slotAt k).record = none := hr
      simp [StepSlot.isCandidate, this] at hc
    | some r => exact ⟨_, State.listed_of_recordAt hr, hc⟩

/-! ## Resolution (R25) -/

/-- A resolution changes the two tables alone. -/
theorem State.resolve_frame (s : State) (k : Slot) :
    s.resolve k = { s with steps := (s.resolve k).steps, nails := (s.resolve k).nails } := by
  unfold State.resolve
  split
  · rfl
  · split
    · rfl
    · rfl
    · dsimp only
      split
      · unfold State.freeSlot; rw [State.lowerRefs_frame]; rfl
      · rw [State.moveRefs_frame]; rfl

/-- A FREE slot, and a record that is not HELD, are left alone. -/
theorem State.resolve_of_not_held {s : State} {k : Slot} (h : ∀ r, s.recordAt k = some r → r.status.isHeld = false) :
    s.resolve k = s := by
  unfold State.resolve
  cases hr : s.recordAt k with
  | none => rfl
  | some r =>
    have := h r hr
    cases hs : r.status <;> simp_all [StepStatus.isHeld]

/-- The slot of a HELD record after its resolution, and every other slot as it was. -/
theorem State.slotAt_resolve {s : State} {k : Slot} {r : StepRecord} {p : Bool} {d : Option StepEdit} {q : Bool}
    (hr : s.recordAt k = some r) (hs : r.status = .held p d q) (j : Slot) :
    (s.resolve k).slotAt j = if j = k then resolvedSlot s (s.slotAt k).runMark r p d q else s.slotAt j := by
  unfold State.resolve resolvedSlot
  simp only [hr, hs]
  cases q
  · cases d <;>
      simp only [Bool.false_eq_true, if_false, StepStatus.ofReasons, State.slotAt_setRecord, State.slotAt_moveRefs]
  · simp only [if_true, State.freeSlot, State.slotAt_setSlot, State.slotAt_lowerRefs]

/-- A resolution keeps all of a nail entry but its count. -/
theorem State.nailAt_resolve_rest (s : State) (k : Slot) (n : NailNo) :
    ∃ c, (s.resolve k).nailAt n = { s.nailAt n with refCount := c } := by
  unfold State.resolve
  split
  · exact ⟨_, rfl⟩
  · split
    · exact ⟨_, rfl⟩
    · exact ⟨_, rfl⟩
    · dsimp only
      split
      · unfold State.freeSlot; rw [State.nailAt_setSlot, State.nailAt_lowerRefs]; exact ⟨_, rfl⟩
      · rw [State.nailAt_setRecord]; exact State.nailAt_moveRefs_rest _ _ _ _

theorem State.canonical_resolve {s : State} (h : s.canonical = true) (k : Slot) : (s.resolve k).canonical = true := by
  unfold State.resolve
  split
  · exact h
  · split
    · exact h
    · exact h
    · dsimp only
      split
      · exact State.canonical_setSlot (State.canonical_lowerRefs _ h) _ _
      · exact State.canonical_setRecord (State.canonical_moveRefs h _ _) _ _

/-! ## The end of a run (R76, R77, R83) -/

/-- The test of a run's end changes run control and the latches alone. -/
theorem State.testRunEnd_frame (s : State) :
    s.testRunEnd = { s with run := s.testRunEnd.run, latches := s.testRunEnd.latches } := by
  unfold State.testRunEnd State.closeRun; split
  · rfl
  · split <;> rfl

/-- The test of a run's end does what its statement says. -/
theorem State.testRunEnd_tested (s : State) : RunEndTested s.run s.latches s.testRunEnd := by
  have hl : s.testRunEnd.allLanesIdle = s.allLanesIdle :=
    State.allLanesIdle_congr (by rw [State.testRunEnd_frame])
  have hm : s.testRunEnd.run.summary.mode = s.run.summary.mode := by
    unfold State.testRunEnd State.closeRun; split
    · rfl
    · split <;> rfl
  have hs : s.testRunEnd.steps = s.steps := by rw [State.testRunEnd_frame]
  unfold RunEndTested
  rw [hl, State.candidates_congr hs hm]
  unfold RunControl.closedBy
  rw [State.notRunCount_congr hs hm]
  unfold State.testRunEnd
  split
  · exact ⟨rfl, rfl⟩
  · split <;> exact ⟨rfl, rfl⟩

/-- What the test of a run's end keeps of run control. -/
theorem State.testRunEnd_run_kept (s : State) :
    s.testRunEnd.run.number = s.run.number ∧ s.testRunEnd.run.rawHigh = s.run.rawHigh
      ∧ s.testRunEnd.run.fixture = s.run.fixture ∧ s.testRunEnd.run.filterTimer = s.run.filterTimer
      ∧ s.testRunEnd.run.summary.mode = s.run.summary.mode
      ∧ s.testRunEnd.run.summary.abortReason = s.run.summary.abortReason := by
  unfold State.testRunEnd State.closeRun
  split
  · simp
  · split <;> simp

/-! ## Recording a verdict (R147 to R149) -/

/-- A verdict on a CONTACT step changes the Nail Map, the latches and the examination state at most. -/
theorem State.contactVerdict_frame (s : State) (n : NailNo) (v : Verdict) :
    s.contactVerdict n v =
      { s with
        nails := (s.contactVerdict n v).nails
        latches := (s.contactVerdict n v).latches
        exam := (s.contactVerdict n v).exam } := by
  unfold State.contactVerdict State.reportOpportunity
  cases v <;> dsimp only <;> (try split) <;> (try split) <;> rfl

theorem State.nailAt_contactVerdict (s : State) (n : NailNo) (v : Verdict) (m : NailNo) :
    (s.contactVerdict n v).nailAt m =
      if m = n then contactNail s.settings.contactThreshold (s.nailAt n) v else s.nailAt m := by
  unfold State.contactVerdict contactNail
  cases v
  case noContact =>
    dsimp only
    split
    · rename_i h; rw [State.nailAt_latch, State.nailAt_setNail]
    · rename_i h; rw [State.nailAt_setNail]
  case pass =>
    dsimp only
    split
    · rename_i h; rw [State.nailAt_reportOpportunity, State.nailAt_setNail]
    · rename_i h; rw [State.nailAt_setNail]
  all_goals
    dsimp only
    split
    · rename_i h; rw [h]
    · rfl

theorem State.contactVerdict_latches (s : State) (n : NailNo) (v : Verdict) :
    (s.contactVerdict n v).latches =
      if (s.nailAt n).state = .service ∧ (contactNail s.settings.contactThreshold (s.nailAt n) v).state = .suspect
      then s.latches.add .nailSuspect else s.latches := by
  unfold State.contactVerdict contactNail
  cases v <;> cases h : (s.nailAt n).state <;> simp [h]
  split <;> simp

theorem State.contactVerdict_exam (s : State) (n : NailNo) (v : Verdict) :
    (s.contactVerdict n v).exam =
      examAfter (decide ((s.nailAt n).state = .suspect)
        && decide ((contactNail s.settings.contactThreshold (s.nailAt n) v).state = .service)) s.run.state s.exam := by
  unfold State.contactVerdict contactNail examAfter
  cases v <;> cases h : (s.nailAt n).state <;> simp [h]
  split <;> simp

/-- Recording a verdict changes the tables, the run summary, the latches and the examination state at most. -/
theorem State.recordVerdict_frame (s : State) (k : Slot) (w : VerdictWrite) :
    s.recordVerdict k w =
      { s with
        steps := (s.recordVerdict k w).steps
        nails := (s.recordVerdict k w).nails
        run := (s.recordVerdict k w).run
        latches := (s.recordVerdict k w).latches
        exam := (s.recordVerdict k w).exam } := by
  unfold State.recordVerdict
  split
  · rfl
  · dsimp only
    split
    · rw [State.contactVerdict_frame]; rfl
    · rfl

/-- A FREE slot takes no verdict (R24). -/
theorem State.recordVerdict_of_free {s : State} {k : Slot} (w : VerdictWrite) (h : s.recordAt k = none) :
    s.recordVerdict k w = s := by
  unfold State.recordVerdict; simp only [h]

theorem State.slotAt_recordVerdict {s : State} {k : Slot} {r : StepRecord} (w : VerdictWrite) (h : s.recordAt k = some r)
    (j : Slot) :
    (s.recordVerdict k w).slotAt j =
      if j = k then
        { runMark := true, record := some { r with stats := r.stats.afterVerdict s.run.summary.mode s.run.number w } }
      else s.slotAt j := by
  rw [← State.slotAt_setSlot]
  unfold State.recordVerdict
  simp only [h]
  cases r.program.kind
  · rfl
  · dsimp only; apply State.slotAt_congr; simp only [State.countVerdict, State.setSummary_steps]
    rw [State.contactVerdict_frame]

theorem State.recordAt_recordVerdict {s : State} {k : Slot} {r : StepRecord} (w : VerdictWrite)
    (h : s.recordAt k = some r) (j : Slot) :
    (s.recordVerdict k w).recordAt j =
      if j = k then some { r with stats := r.stats.afterVerdict s.run.summary.mode s.run.number w } else s.recordAt j := by
  unfold State.recordAt; rw [State.slotAt_recordVerdict w h]; split <;> rfl

theorem State.nailAt_recordVerdict {s : State} {k : Slot} {r : StepRecord} (w : VerdictWrite) (h : s.recordAt k = some r)
    (m : NailNo) :
    (s.recordVerdict k w).nailAt m =
      if r.program.kind = .contact ∧ m = r.program.nails.srcHi then
        contactNail s.settings.contactThreshold (s.nailAt m) w.verdict
      else s.nailAt m := by
  unfold State.recordVerdict
  simp only [h]
  cases r.program.kind
  · simp [State.countVerdict]
  · simp only [State.countVerdict, State.nailAt_setSummary, State.nailAt_contactVerdict, State.nailAt_setSlot,
      State.setSlot_settings, true_and]
    split
    · rename_i hm; rw [hm]
    · rfl

/-- Recording a verdict on a record: what its slot, the other slots and the nails read as. -/
theorem State.recordVerdict_recorded {s : State} {k : Slot} {r : StepRecord} (w : VerdictWrite)
    (h : s.recordAt k = some r) : VerdictRecorded s (s.recordVerdict k w) k r w :=
  ⟨by simp [State.slotAt_recordVerdict w h], fun j hj => by simp [State.slotAt_recordVerdict w h, hj],
    fun n => State.nailAt_recordVerdict w h n⟩

/-- Recording a verdict on a record counts it, and tells of a nail that moves. -/
theorem State.recordVerdict_told {s : State} {k : Slot} {r : StepRecord} (w : VerdictWrite) (h : s.recordAt k = some r) :
    (s.recordVerdict k w).run = s.run.counting w.verdict
      ∧ (s.recordVerdict k w).latches =
          (if s.movesToSuspect r w.verdict then s.latches.add .nailSuspect else s.latches)
      ∧ (s.recordVerdict k w).exam = examAfter (s.movesToService r w.verdict) s.run.state s.exam := by
  unfold State.recordVerdict State.movesToSuspect State.movesToService
  simp only [h]
  cases hk : r.program.kind
  · refine ⟨rfl, by simp [State.countVerdict], by simp [State.countVerdict, examAfter]⟩
  · dsimp only
    refine ⟨?_, ?_, ?_⟩
    · simp only [State.countVerdict, State.setSummary, RunControl.counting]
      rw [State.contactVerdict_frame]; rfl
    · simp only [State.countVerdict, State.setSummary_latches, State.contactVerdict_latches, State.nailAt_setSlot,
        State.setSlot_settings, State.setSlot_latches, decide_true, Bool.true_and, Bool.and_eq_true, decide_eq_true_eq]
    · simp only [State.countVerdict, State.setSummary_exam, State.contactVerdict_exam, State.nailAt_setSlot,
        State.setSlot_settings, State.setSlot_run, State.setSlot_exam, decide_true, Bool.true_and]

theorem State.canonical_contactVerdict {s : State} (h : s.canonical = true) (n : NailNo) (v : Verdict) :
    (s.contactVerdict n v).canonical = true := by
  unfold State.contactVerdict
  cases v
  case noContact => dsimp only; split <;> simp only [State.canonical_latch, State.canonical_setNail h]
  case pass => dsimp only; split <;> simp only [State.canonical_reportOpportunity, State.canonical_setNail h]
  all_goals exact h

theorem State.canonical_recordVerdict {s : State} (h : s.canonical = true) (k : Slot) (w : VerdictWrite) :
    (s.recordVerdict k w).canonical = true := by
  unfold State.recordVerdict
  split
  · exact h
  · unfold State.countVerdict
    rw [State.canonical_setSummary]
    split
    · exact State.canonical_contactVerdict (State.canonical_setSlot h _ _) _ _
    · exact State.canonical_setSlot h _ _

end Sys2Proof.Machine
end

