-- ==== Sys2Proof/Laws/Lanes.lean ====
section
/-! SUPPORT. Laws of the lane operations (Machine/LaneOps.lean): what an event at a lane can touch, the phases it leaves, and
the outcomes of an OPEN sequence. -/

namespace Sys2Proof.Machine

/-! ## What an event at a lane can touch -/

/-- An event at a lane leaves the other lanes and converter ports, the cards, the link, the census, the settings and the
request port as they were, of run control all but its state and its counts, and clears no latch. -/
structure LaneFrame (l : LaneNo) (s t : State) : Prop where
  lanes : OtherLanesSame s t l
  ports : ∀ m, m ≠ l → t.portAt m = s.portAt m
  cards : t.cards = s.cards
  link : t.link = s.link
  census : t.census = s.census
  settings : SameSettings s t
  port : SamePort s t
  number : t.run.number = s.run.number
  rawHigh : t.run.rawHigh = s.run.rawHigh
  fixture : t.run.fixture = s.run.fixture
  filterTimer : t.run.filterTimer = s.run.filterTimer
  mode : t.run.summary.mode = s.run.summary.mode
  latches : ∀ c, s.latches.has c = true → t.latches.has c = true

theorem LaneFrame.refl (l : LaneNo) (s : State) : LaneFrame l s s :=
  ⟨fun _ _ => rfl, fun _ _ => rfl, rfl, rfl, rfl, ⟨rfl, rfl, rfl, rfl, rfl⟩, ⟨rfl, rfl, rfl⟩, rfl, rfl, rfl, rfl, rfl,
    fun _ h => h⟩

theorem LaneFrame.trans {l : LaneNo} {s t u : State} (h : LaneFrame l s t) (g : LaneFrame l t u) : LaneFrame l s u where
  lanes m hm := (g.lanes m hm).trans (h.lanes m hm)
  ports m hm := (g.ports m hm).trans (h.ports m hm)
  cards := g.cards.trans h.cards
  link := g.link.trans h.link
  census := g.census.trans h.census
  settings := by
    obtain ⟨a, b, c, d, e⟩ := h.settings
    obtain ⟨a', b', c', d', e'⟩ := g.settings
    exact ⟨a'.trans a, b'.trans b, c'.trans c, d'.trans d, e'.trans e⟩
  port := by
    obtain ⟨a, b, c⟩ := h.port
    obtain ⟨a', b', c'⟩ := g.port
    exact ⟨a'.trans a, b'.trans b, c'.trans c⟩
  number := g.number.trans h.number
  rawHigh := g.rawHigh.trans h.rawHigh
  fixture := g.fixture.trans h.fixture
  filterTimer := g.filterTimer.trans h.filterTimer
  mode := g.mode.trans h.mode
  latches c hc := g.latches c (h.latches c hc)

/-- An update of the tables and of the examination state is within every lane's frame. -/
theorem LaneFrame.of_tables (l : LaneNo) (s : State) (steps : List (Slot × StepSlot)) (nails : List (NailNo × NailEntry))
    (exam : ExamState) : LaneFrame l s { s with steps := steps, nails := nails, exam := exam } :=
  ⟨fun _ _ => rfl, fun _ _ => rfl, rfl, rfl, rfl, ⟨rfl, rfl, rfl, rfl, rfl⟩, ⟨rfl, rfl, rfl⟩, rfl, rfl, rfl, rfl, rfl,
    fun _ h => h⟩

theorem LaneFrame.setLane (l : LaneNo) (s : State) (v : Lane) : LaneFrame l s (s.setLane l v) :=
  { LaneFrame.refl l s with
    lanes := fun m hm => by rw [State.laneAt_setLane, if_neg hm]
    ports := fun _ _ => rfl, settings := ⟨rfl, rfl, rfl, rfl, rfl⟩, port := ⟨rfl, rfl, rfl⟩ }

theorem LaneFrame.setPort (l : LaneNo) (s : State) (v : ConverterPort) : LaneFrame l s (s.setPort l v) :=
  { LaneFrame.refl l s with
    ports := fun m hm => by rw [State.portAt_setPort, if_neg hm]
    lanes := fun _ _ => rfl, settings := ⟨rfl, rfl, rfl, rfl, rfl⟩, port := ⟨rfl, rfl, rfl⟩ }

theorem LaneFrame.setRecord (l : LaneNo) (s : State) (k : Slot) (r : StepRecord) : LaneFrame l s (s.setRecord k r) :=
  LaneFrame.of_tables l s _ s.nails s.exam

theorem LaneFrame.freeBindings (l : LaneNo) (s : State) : LaneFrame l s (s.freeBindings l) :=
  LaneFrame.of_tables l s s.steps _ s.exam

theorem LaneFrame.resolve (l : LaneNo) (s : State) (k : Slot) : LaneFrame l s (s.resolve k) := by
  rw [State.resolve_frame]; exact LaneFrame.of_tables l s _ _ s.exam

theorem LaneFrame.reportOpportunity (l : LaneNo) (s : State) : LaneFrame l s s.reportOpportunity := by
  rw [State.reportOpportunity_eq]; exact LaneFrame.of_tables l s s.steps s.nails _

/-- The test of a run's end clears no latch. -/
theorem State.testRunEnd_latches (s : State) (c : Condition) (h : s.latches.has c = true) :
    s.testRunEnd.latches.has c = true := by
  have ht := State.testRunEnd_tested s
  unfold RunEndTested at ht
  split at ht
  · rw [ht.2, Conditions.has_add, h, Bool.or_true]
  · split at ht
    · rw [ht.2, Conditions.has_add, h, Bool.or_true]
    · rw [ht.2]; exact h

theorem LaneFrame.testRunEnd (l : LaneNo) (s : State) : LaneFrame l s s.testRunEnd := by
  obtain ⟨h1, h2, h3, h4, h5, _⟩ := State.testRunEnd_run_kept s
  refine ⟨?_, ?_, ?_, ?_, ?_, ?_, ?_, h1, h2, h3, h4, h5, State.testRunEnd_latches s⟩ <;> rw [State.testRunEnd_frame]
  · exact fun _ _ => rfl
  · exact fun _ _ => rfl
  · exact ⟨rfl, rfl, rfl, rfl, rfl⟩
  · exact ⟨rfl, rfl, rfl⟩

/-- A verdict recorded leaves run control as it was but for the counts. -/
theorem State.recordVerdict_run_kept (s : State) (k : Slot) (w : VerdictWrite) :
    (s.recordVerdict k w).run = s.run ∨ (s.recordVerdict k w).run = s.run.counting w.verdict := by
  cases hr : s.recordAt k with
  | none => left; rw [State.recordVerdict_of_free w hr]
  | some r => right; exact (State.recordVerdict_told w hr).1

theorem LaneFrame.recordVerdict (l : LaneNo) (s : State) (k : Slot) (w : VerdictWrite) :
    LaneFrame l s (s.recordVerdict k w) := by
  refine ⟨?_, ?_, ?_, ?_, ?_, ?_, ?_, ?_, ?_, ?_, ?_, ?_, ?_⟩
  case refine_8 => rcases s.recordVerdict_run_kept k w with h | h <;> (rw [h]; try rfl)
  case refine_9 => rcases s.recordVerdict_run_kept k w with h | h <;> (rw [h]; try rfl)
  case refine_10 => rcases s.recordVerdict_run_kept k w with h | h <;> (rw [h]; try rfl)
  case refine_11 => rcases s.recordVerdict_run_kept k w with h | h <;> (rw [h]; try rfl)
  case refine_12 => rcases s.recordVerdict_run_kept k w with h | h <;> (rw [h]; try rfl)
  case refine_13 =>
    intro c hc
    cases hr : s.recordAt k with
    | none => rw [State.recordVerdict_of_free w hr]; exact hc
    | some r =>
      rw [(State.recordVerdict_told w hr).2.1]
      split
      · rw [Conditions.has_add, hc, Bool.or_true]
      · exact hc
  all_goals rw [State.recordVerdict_frame]
  · exact fun _ _ => rfl
  · exact fun _ _ => rfl
  · exact ⟨rfl, rfl, rfl, rfl, rfl⟩
  · exact ⟨rfl, rfl, rfl⟩

/-! ## Release (R121 to R123) -/

theorem LaneFrame.endRelease (l : LaneNo) (s : State) : LaneFrame l s (s.endRelease l) := by
  unfold State.endRelease
  dsimp only
  refine LaneFrame.trans ?_ (LaneFrame.testRunEnd l _)
  refine LaneFrame.trans ?_ (LaneFrame.reportOpportunity l _)
  refine LaneFrame.trans ?_ (LaneFrame.setLane l _ _)
  split
  · exact LaneFrame.freeBindings l s
  · exact (LaneFrame.freeBindings l s).trans (LaneFrame.resolve l _ _)

/-- After the end of its step a lane is as a reset leaves it (R123). -/
theorem State.laneAt_endRelease (s : State) (l : LaneNo) : (s.endRelease l).laneAt l = Lane.blank := by
  unfold State.endRelease
  dsimp only
  rw [State.laneAt_congr (s := (_ : State).reportOpportunity) (by rw [State.testRunEnd_frame]), State.laneAt_reportOpportunity,
    State.laneAt_setLane_self]

/-- The converter ports are not part of a release. -/
theorem State.ports_endRelease (s : State) (l : LaneNo) : (s.endRelease l).ports = s.ports := by
  unfold State.endRelease
  dsimp only
  rw [State.testRunEnd_frame]
  simp only [State.reportOpportunity_ports, State.setLane_ports]
  split
  · rfl
  · rw [State.resolve_frame]; rfl

theorem State.canonical_testRunEnd (s : State) : s.testRunEnd.canonical = s.canonical :=
  State.canonical_congr (by rw [State.testRunEnd_frame]) (by rw [State.testRunEnd_frame])

theorem State.canonical_endRelease {s : State} (h : s.canonical = true) (l : LaneNo) :
    (s.endRelease l).canonical = true := by
  unfold State.endRelease
  simp only [State.canonical_testRunEnd, State.canonical_reportOpportunity, State.canonical_setLane]
  split
  · exact State.canonical_freeBindings h l
  · exact State.canonical_resolve (State.canonical_freeBindings h l) _

/-- The start of a release wait ends the step at once, or leaves the lane with the wait running. -/
theorem State.startReleaseWait_cases (s : State) (l : LaneNo) :
    s.startReleaseWait l = (s.setLane l { s.laneAt l with openPosition := 0 }).endRelease l
      ∨ ∃ wait, wait ≠ 0 ∧ wait = releaseWaitTicks ((s.laneAt l).releaseSet.map s.releaseTime) s.tick
        ∧ s.startReleaseWait l = (s.setLane l { s.laneAt l with openPosition := 0 }).setLane l
            { s.laneAt l with openPosition := 0, timer := some (.releaseWait wait) } := by
  unfold State.startReleaseWait
  dsimp only
  split
  · exact .inl rfl
  · rename_i h; exact .inr ⟨_, h, rfl, by rw [State.laneAt_setLane_self]⟩

theorem LaneFrame.startReleaseWait (l : LaneNo) (s : State) : LaneFrame l s (s.startReleaseWait l) := by
  rcases s.startReleaseWait_cases l with h | ⟨w, _, _, h⟩ <;> rw [h]
  · exact (LaneFrame.setLane l s _).trans (LaneFrame.endRelease l _)
  · exact (LaneFrame.setLane l s _).trans (LaneFrame.setLane l _ _)

theorem State.canonical_startReleaseWait {s : State} (h : s.canonical = true) (l : LaneNo) :
    (s.startReleaseWait l).canonical = true := by
  rcases s.startReleaseWait_cases l with h' | ⟨w, _, _, h'⟩ <;> rw [h']
  · exact State.canonical_endRelease (by simpa using h) l
  · simpa using h

/-- An OPEN sequence requests an OPEN at the highest position whose nail is on an ONLINE card, or ends. -/
theorem State.openSequence_cases (l : LaneNo) (n : Nat) (s : State) :
    State.openSequence l n s = s.startReleaseWait l
      ∨ ∃ m bus nail, m < n ∧ (s.heldNails l)[m]? = some (bus, nail) ∧ s.nailOnline nail = true
        ∧ State.openSequence l n s = s.setLane l { s.laneAt l with openPosition := m + 1, linkRequest := .waiting } := by
  induction n with
  | zero => exact .inl rfl
  | succ n ih =>
    have lift : (State.openSequence l n s = s.startReleaseWait l
        ∨ ∃ m bus nail, m < n ∧ (s.heldNails l)[m]? = some (bus, nail) ∧ s.nailOnline nail = true
          ∧ State.openSequence l n s = s.setLane l { s.laneAt l with openPosition := m + 1, linkRequest := .waiting }) →
        (State.openSequence l n s = s.startReleaseWait l
        ∨ ∃ m bus nail, m < n + 1 ∧ (s.heldNails l)[m]? = some (bus, nail) ∧ s.nailOnline nail = true
          ∧ State.openSequence l n s = s.setLane l { s.laneAt l with openPosition := m + 1, linkRequest := .waiting }) :=
      fun h => h.imp_right fun ⟨m, bus, nail, hm, h⟩ => ⟨m, bus, nail, by omega, h⟩
    unfold State.openSequence
    split
    · exact lift ih
    · rename_i bus nail h
      split
      · rename_i ho; exact .inr ⟨n, bus, nail, by omega, h, ho, rfl⟩
      · exact lift ih

/-- With an ONLINE nail at the open position the OPEN of that nail is requested (R122). -/
theorem State.openSequence_requests {s : State} {l : LaneNo} {n : Nat} {bus : Role} {nail : NailNo}
    (h : (s.heldNails l)[n]? = some (bus, nail)) (ho : s.nailOnline nail = true) :
    State.openSequence l (n + 1) s = s.setLane l { s.laneAt l with openPosition := n + 1, linkRequest := .waiting } := by
  unfold State.openSequence; simp only [h, ho, if_true]

theorem LaneFrame.openSequence (l : LaneNo) (n : Nat) (s : State) : LaneFrame l s (State.openSequence l n s) := by
  rcases State.openSequence_cases l n s with h | ⟨_, _, _, _, _, _, h⟩ <;> rw [h]
  · exact LaneFrame.startReleaseWait l s
  · exact LaneFrame.setLane l s _

theorem State.canonical_openSequence {s : State} (h : s.canonical = true) (l : LaneNo) (n : Nat) :
    (State.openSequence l n s).canonical = true := by
  rcases State.openSequence_cases l n s with h' | ⟨_, _, _, _, _, _, h'⟩ <;> rw [h']
  · exact State.canonical_startReleaseWait h l
  · simpa using h

/-- A lane whose OPEN sequence has gone on is IDLE as a reset leaves it, or keeps its phase. -/
theorem State.laneAt_openSequence (l : LaneNo) (n : Nat) (s : State) :
    (State.openSequence l n s).laneAt l = Lane.blank
      ∨ ∃ position request timer, (State.openSequence l n s).laneAt l =
          { s.laneAt l with openPosition := position, linkRequest := request, timer := timer } := by
  rcases State.openSequence_cases l n s with h | ⟨m, _, _, _, _, _, h⟩ <;> rw [h]
  · rcases s.startReleaseWait_cases l with h | ⟨w, _, _, h⟩ <;> rw [h]
    · exact .inl (State.laneAt_endRelease _ l)
    · exact .inr ⟨_, _, _, by rw [State.laneAt_setLane_self]⟩
  · exact .inr ⟨_, _, _, by rw [State.laneAt_setLane_self]⟩

/-- An OPEN sequence leaves the converter ports as they were. -/
theorem State.ports_openSequence (l : LaneNo) (n : Nat) (s : State) : (State.openSequence l n s).ports = s.ports := by
  rcases State.openSequence_cases l n s with h | ⟨m, _, _, _, _, _, h⟩ <;> rw [h]
  · rcases s.startReleaseWait_cases l with h | ⟨w, _, _, h⟩ <;> rw [h]
    · rw [State.ports_endRelease]; rfl
    · rfl
  · rfl

/-- The entry to RELEASING leaves the converter ports as they were. -/
theorem State.ports_enterReleasing (s : State) (l : LaneNo) (w : VerdictWrite) : (s.enterReleasing l w).ports = s.ports := by
  unfold State.enterReleasing
  dsimp only
  rw [State.ports_openSequence, State.setLane_ports]
  split
  · rfl
  · rw [State.recordVerdict_frame]

theorem LaneFrame.enterReleasing (l : LaneNo) (s : State) (w : VerdictWrite) : LaneFrame l s (s.enterReleasing l w) := by
  unfold State.enterReleasing
  dsimp only
  refine LaneFrame.trans ?_ (LaneFrame.openSequence l _ _)
  refine LaneFrame.trans ?_ (LaneFrame.setLane l _ _)
  split
  · exact LaneFrame.refl l s
  · exact LaneFrame.recordVerdict l s _ w

theorem State.canonical_enterReleasing {s : State} (h : s.canonical = true) (l : LaneNo) (w : VerdictWrite) :
    (s.enterReleasing l w).canonical = true := by
  unfold State.enterReleasing
  dsimp only
  refine State.canonical_openSequence ?_ l _
  rw [State.canonical_setLane]
  split
  · exact h
  · exact State.canonical_recordVerdict h _ w

/-- A lane that has entered RELEASING is RELEASING, or its release has ended in the same event and it is IDLE. -/
theorem State.phase_enterReleasing (s : State) (l : LaneNo) (w : VerdictWrite) :
    ((s.enterReleasing l w).laneAt l).phase = .releasing ∨ (s.enterReleasing l w).laneAt l = Lane.blank := by
  unfold State.enterReleasing
  dsimp only
  rcases State.laneAt_openSequence l (s.laneAt l).closedCount _ with h | ⟨p, q, t, h⟩ <;> rw [h]
  · exact .inr rfl
  · left; rw [State.laneAt_setLane_self]

/-- The entry to RELEASING of a lane whose last closed nail is on an ONLINE card: the verdict recorded, and the OPEN of that
nail requested (R121, R122). -/
theorem State.enterReleasing_requests {s : State} {l : LaneNo} {k : Slot} {r : StepRecord} {p : Nat} {bus : Role}
    {nail : NailNo} (w : VerdictWrite) (hh : s.heldBy l = some (k, r)) (hc : (s.laneAt l).closedCount = p + 1)
    (hn : r.program.nails.entries[p]? = some (bus, nail)) (ho : s.nailOnline nail = true) :
    s.enterReleasing l w = (s.recordVerdict k w).setLane l
      { s.laneAt l with
        phase := .releasing, releaseSet := s.namedReleaseSet l, openPosition := p + 1, pendingEnd := none,
        linkRequest := .waiting, timer := none } := by
  have hk := (State.heldBy_eq_some s l k r).mp hh
  unfold State.enterReleasing
  simp only [hk.1, hc]
  have hnails : ∀ v : Lane, v.heldSlot = some k → (((s.recordVerdict k w).setLane l v).heldNails l)[p]? =
      some (bus, nail) := by
    intro v hv
    rw [State.heldNails_of_heldBy ((State.heldBy_eq_some _ l k _).mpr ⟨by rw [State.laneAt_setLane_self]; exact hv, by
      rw [State.recordAt_setLane, State.recordAt_recordVerdict w hk.2, if_pos rfl]⟩)]
    exact hn
  have hon : ∀ v : Lane, ((s.recordVerdict k w).setLane l v).nailOnline nail = true := by
    intro v
    rw [State.nailOnline_congr (s := s) (by rw [State.setLane_cards, State.recordVerdict_frame])]; exact ho
  rw [State.openSequence_requests (hnails _ rfl) (hon _), State.laneAt_setLane_self]
  simp only [State.setLane, Vector.set_set]

/-! ## Ends decided from outside, settling, commands completed -/

theorem LaneFrame.clearOutstanding (l : LaneNo) (s : State) : LaneFrame l s (s.clearOutstanding l) :=
  LaneFrame.setPort l s _

theorem LaneFrame.endLaneWith (l : LaneNo) (s : State) (e : PendingEnd) : LaneFrame l s (s.endLaneWith l e) := by
  unfold State.endLaneWith
  dsimp only
  split
  · exact LaneFrame.refl l s
  · split
    · split
      · exact LaneFrame.refl l s
      · exact LaneFrame.setLane l s _
    · exact LaneFrame.enterReleasing l s _
  · exact LaneFrame.enterReleasing l s _
  · exact (LaneFrame.clearOutstanding l s).trans (LaneFrame.enterReleasing l _ _)
  · exact LaneFrame.refl l s

/-- An IDLE lane takes no order and no notice (R124, R126). -/
theorem State.endLaneWith_of_idle {s : State} {l : LaneNo} (h : (s.laneAt l).phase = .idle) (e : PendingEnd) :
    s.endLaneWith l e = s := by
  unfold State.endLaneWith; simp only [h]

theorem State.canonical_endLaneWith {s : State} (h : s.canonical = true) (l : LaneNo) (e : PendingEnd) :
    (s.endLaneWith l e).canonical = true := by
  unfold State.endLaneWith
  dsimp only
  split
  · exact h
  · split
    · split
      · exact h
      · simpa using h
    · exact State.canonical_enterReleasing h l _
  · exact State.canonical_enterReleasing h l _
  · exact State.canonical_enterReleasing (by simpa [State.clearOutstanding] using h) l _
  · exact h

/-- After an order to abandon or an offline notice a lane neither settles nor measures, and while it is CLOSING its command is
outstanding and an end is pending (R124, R126). -/
theorem State.phase_endLaneWith (s : State) (l : LaneNo) (e : PendingEnd) :
    ((s.endLaneWith l e).laneAt l).phase ≠ .settling ∧ ((s.endLaneWith l e).laneAt l).phase ≠ .measuring
      ∧ (((s.endLaneWith l e).laneAt l).phase = .closing →
          ((s.endLaneWith l e).laneAt l).pendingEnd ≠ none ∧ ((s.endLaneWith l e).laneAt l).linkRequest = .inFlight) := by
  have entered : ∀ (t : State) (w : VerdictWrite),
      ((t.enterReleasing l w).laneAt l).phase ≠ .settling ∧ ((t.enterReleasing l w).laneAt l).phase ≠ .measuring
      ∧ (((t.enterReleasing l w).laneAt l).phase = .closing →
          ((t.enterReleasing l w).laneAt l).pendingEnd ≠ none
            ∧ ((t.enterReleasing l w).laneAt l).linkRequest = .inFlight) := by
    intro t w
    rcases t.phase_enterReleasing l w with h | h
    · simp [h]
    · simp [h, Lane.blank]
  unfold State.endLaneWith
  dsimp only
  split
  · rename_i h; simp [h]
  · rename_i h
    split
    · rename_i hl
      split
      · rename_i hp; simp [h, hl, hp]
      · simp [h, hl]
    · exact entered s _
  · exact entered s _
  · exact entered _ _
  · rename_i h; simp [h]

theorem LaneFrame.writeClamped (l : LaneNo) (s : State) (flag : Bool) : LaneFrame l s (s.writeClamped l flag) := by
  unfold State.writeClamped
  split
  · exact LaneFrame.refl l s
  · exact LaneFrame.setRecord l s _ _

theorem LaneFrame.sendStart (l : LaneNo) (s : State) (aperture : BitVec 16) : LaneFrame l s (s.sendStart l aperture) :=
  (LaneFrame.setPort l s _).trans (LaneFrame.setLane l _ _)

theorem LaneFrame.startSettle (l : LaneNo) (s : State) (aperture : BitVec 16) (settle : Nat × Bool) :
    LaneFrame l s (s.startSettle l aperture settle) := by
  unfold State.startSettle
  dsimp only
  refine (LaneFrame.writeClamped l s settle.2).trans ?_
  split
  · exact (LaneFrame.setLane l _ _).trans (LaneFrame.sendStart l _ _)
  · exact LaneFrame.setLane l _ _

theorem State.canonical_writeClamped {s : State} (h : s.canonical = true) (l : LaneNo) (flag : Bool) :
    (s.writeClamped l flag).canonical = true := by
  unfold State.writeClamped
  split
  · exact h
  · exact State.canonical_setRecord h _ _

theorem State.canonical_startSettle {s : State} (h : s.canonical = true) (l : LaneNo) (aperture : BitVec 16)
    (settle : Nat × Bool) : (s.startSettle l aperture settle).canonical = true := by
  unfold State.startSettle State.sendStart
  dsimp only
  split <;> simpa using State.canonical_writeClamped h l settle.2

theorem LaneFrame.closeCompleted (l : LaneNo) (s : State) : LaneFrame l s (s.closeCompleted l) := by
  unfold State.closeCompleted
  dsimp only
  split
  · exact (LaneFrame.setLane l s _).trans (LaneFrame.enterReleasing l _ _)
  · split
    · exact LaneFrame.setLane l s _
    · split
      · exact (LaneFrame.setLane l s _).trans (LaneFrame.setLane l _ _)
      · exact (LaneFrame.setLane l s _).trans (LaneFrame.startSettle l _ _ _)

theorem LaneFrame.openCompleted (l : LaneNo) (s : State) : LaneFrame l s (s.openCompleted l) :=
  (LaneFrame.setLane l s _).trans (LaneFrame.openSequence l _ _)

/-- The completion of a lane's command touches that lane's things alone. -/
theorem LaneFrame.laneCommandOk (l : LaneNo) (s : State) : LaneFrame l s (s.laneCommandOk l) := by
  unfold State.laneCommandOk
  split
  · exact LaneFrame.closeCompleted l s
  · exact LaneFrame.openCompleted l s
  · exact LaneFrame.setLane l s _

/-- The failure of a lane's command touches that lane's things alone. -/
theorem LaneFrame.laneCommandFailed (l : LaneNo) (s : State) : LaneFrame l s (s.laneCommandFailed l) := by
  unfold State.laneCommandFailed
  dsimp only
  split
  · exact (LaneFrame.setLane l s _).trans (LaneFrame.enterReleasing l _ _)
  · exact LaneFrame.openCompleted l s
  · exact LaneFrame.setLane l s _

theorem State.canonical_laneCommandOk {s : State} (h : s.canonical = true) (l : LaneNo) :
    (s.laneCommandOk l).canonical = true := by
  unfold State.laneCommandOk State.closeCompleted State.openCompleted
  dsimp only
  split
  · split
    · exact State.canonical_enterReleasing (by simpa using h) l _
    · split
      · simpa using h
      · split
        · simpa using h
        · exact State.canonical_startSettle (by simpa using h) l _ _
  · exact State.canonical_openSequence (by simpa using h) l _
  · simpa using h

theorem State.canonical_laneCommandFailed {s : State} (h : s.canonical = true) (l : LaneNo) :
    (s.laneCommandFailed l).canonical = true := by
  unfold State.laneCommandFailed State.openCompleted
  dsimp only
  split
  · exact State.canonical_enterReleasing (by simpa using h) l _
  · exact State.canonical_openSequence (by simpa using h) l _
  · simpa using h

/-- The failure of a lane's command leaves the converter ports as they were. -/
theorem State.ports_laneCommandFailed (s : State) (l : LaneNo) : (s.laneCommandFailed l).ports = s.ports := by
  unfold State.laneCommandFailed State.openCompleted
  dsimp only
  split
  · rw [State.ports_enterReleasing, State.setLane_ports]
  · rw [State.ports_openSequence, State.setLane_ports]
  · rfl

/-- After the failure of its command a lane is not CLOSING (R114, R122). -/
theorem State.phase_laneCommandFailed (s : State) (l : LaneNo) : ((s.laneCommandFailed l).laneAt l).phase ≠ .closing := by
  unfold State.laneCommandFailed State.openCompleted
  dsimp only
  split
  · rename_i h
    rcases State.phase_enterReleasing (s.setLane l { s.laneAt l with linkRequest := .none }) l _ with h' | h'
    · rw [h']; simp
    · rw [h']; simp [Lane.blank]
  · rename_i h
    rcases State.laneAt_openSequence l ((s.laneAt l).openPosition - 1) (s.setLane l
      { s.laneAt l with linkRequest := .none, openPosition := (s.laneAt l).openPosition - 1 }) with h' | ⟨_, _, _, h'⟩
    · rw [h']; simp [Lane.blank]
    · rw [h', State.laneAt_setLane_self]; simp [h]
  · rename_i h _; rw [State.laneAt_setLane_self]; simpa using h

/-! ## The operate time of a settle (R55) -/

/-- A maximum folded over a list bounds the list and is its start or a member. -/
theorem foldl_max_spec (l : List Nat) (a : Nat) :
    a ≤ l.foldl max a ∧ (∀ x ∈ l, x ≤ l.foldl max a) ∧ (l.foldl max a = a ∨ l.foldl max a ∈ l) := by
  induction l generalizing a with
  | nil => simp
  | cons x xs ih =>
    obtain ⟨h1, h2, h3⟩ := ih (max a x)
    simp only [List.foldl_cons, List.mem_cons, forall_eq_or_imp]
    refine ⟨by omega, ⟨by omega, h2⟩, ?_⟩
    rcases h3 with h3 | h3
    · rw [h3]; omega
    · exact .inr (.inr h3)

/-- The operate time of a settle is the largest of those of the cards of the list (R55). -/
theorem State.largestOperate_spec (s : State) (nails : NailList) :
    (∀ n ∈ nails.toList, s.operateTime (cardOf n) ≤ s.largestOperate nails)
      ∧ (s.largestOperate nails = 0 ∨ ∃ n ∈ nails.toList, s.largestOperate nails = s.operateTime (cardOf n)) := by
  obtain ⟨-, h2, h3⟩ := foldl_max_spec (nails.toList.map (fun n => s.operateTime (cardOf n))) 0
  refine ⟨fun n hn => h2 _ (List.mem_map.mpr ⟨n, hn, rfl⟩), h3.imp id fun h => ?_⟩
  obtain ⟨n, hn, he⟩ := List.mem_map.mp h
  exact ⟨n, hn, he.symm⟩

end Sys2Proof.Machine
end

