-- ==== Sys2Proof/Laws/Link.lean ====
section
/-! SUPPORT. Laws of the Matrix Link's operations (Machine/LinkOps.lean): whom the arbiter grants and what a grant can touch,
offline notices, and the course of a census. -/

namespace Sys2Proof.Machine

/-! ## Ranks (R159) -/

@[simp] theorem laneOfRank_rankOfLane (l : LaneNo) : laneOfRank (rankOfLane l) = some l := by revert l; decide

theorem laneOfRank_eq_some (r : Fin 5) (l : LaneNo) : laneOfRank r = some l ↔ r = rankOfLane l := by revert r l; decide

theorem laneOfRank_eq_none (r : Fin 5) : laneOfRank r = none ↔ r = 4 := by revert r; decide

@[simp] theorem State.waits_lane (s : State) (l : LaneNo) :
    s.waits (rankOfLane l) = decide ((s.laneAt l).linkRequest = .waiting) := by
  unfold State.waits; rw [laneOfRank_rankOfLane]

/-- Every rank is after every rank. -/
theorem mem_ranksAfter (last r : Fin 5) : r ∈ ranksAfter last := by revert last r; decide

/-- No requester waits. -/
theorem State.nextWaiting_eq_none (s : State) (last : Fin 5) : s.nextWaiting last = none ↔ ∀ r, s.waits r = false := by
  unfold State.nextWaiting
  rw [List.find?_eq_none]
  simp only [Bool.not_eq_true]
  exact ⟨fun h r => h r (mem_ranksAfter last r), fun h r _ => h r⟩

/-- The next waiting requester waits, and no waiting requester comes before it after the rank given. -/
theorem State.nextWaiting_eq_some {s : State} {last r : Fin 5} (h : s.nextWaiting last = some r) :
    s.waits r = true ∧ ∀ x, s.waits x = true → r - last - 1 ≤ x - last - 1 := by
  have hfun : ∀ (f : Fin 5 → Bool) (last r : Fin 5), (ranksAfter last).find? (fun x => f x) = some r →
      f r = true ∧ ∀ x, f x = true → r - last - 1 ≤ x - last - 1 := by decide
  exact hfun s.waits last r h

/-- The requester to be served next is the one the arbiter finds. -/
theorem State.servedNext_iff (s : State) (r : Fin 5) : s.servedNext r ↔ s.nextWaiting s.link.lastGranted = some r := by
  have hfun : ∀ (f : Fin 5 → Bool) (last r : Fin 5),
      (f r = true ∧ ∀ x, f x = true → r - last - 1 ≤ x - last - 1) ↔
        (ranksAfter last).find? (fun x => f x) = some r := by decide
  exact hfun s.waits s.link.lastGranted r

/-! ## Grants (R159, R160) -/

/-- While a command is in flight nothing is granted. -/
theorem State.grantFrom_of_busy (fuel : Nat) (last : Fin 5) {s : State} (h : s.link.inFlight.isSome = true) :
    State.grantFrom fuel last s = s := by
  cases fuel with
  | zero => rfl
  | succ n => unfold State.grantFrom; rw [if_pos h]

/-- While nobody waits nothing is granted. -/
theorem State.grantFrom_of_nobody (fuel : Nat) (last : Fin 5) {s : State} (h : ∀ r, s.waits r = false) :
    State.grantFrom fuel last s = s := by
  cases fuel with
  | zero => rfl
  | succ n =>
    unfold State.grantFrom
    rw [(State.nextWaiting_eq_none s last).mpr h]
    split <;> rfl

/-- A lane that is next and asks for an ONLINE card is granted, and its command sent. -/
theorem State.grantFrom_sends {s : State} {last : Fin 5} {l : LaneNo} {c : LinkCommand} (fuel : Nat)
    (hf : s.link.inFlight = none) (hn : s.nextWaiting last = some (rankOfLane l)) (hc : s.laneCommand l = some c)
    (ho : (s.cardAt c.card).state = .online) :
    State.grantFrom (fuel + 1) last s =
      (s.sendCommand (rankOfLane l) c).setLane l { s.laneAt l with linkRequest := .inFlight } := by
  unfold State.grantFrom
  simp only [hf, Option.isSome_none, Bool.false_eq_true, if_false, hn, laneOfRank_rankOfLane, hc, ho, if_true]

/-- The census engine, when it is next, is granted and its command sent. -/
theorem State.grantFrom_census {s : State} {last : Fin 5} {x : Census} (fuel : Nat)
    (hf : s.link.inFlight = none) (hn : s.nextWaiting last = some 4) (hx : s.census = some x) :
    State.grantFrom (fuel + 1) last s =
      { (s.sendCommand 4 x.command) with census := some { x with request := .inFlight } } := by
  unfold State.grantFrom
  have h4 : laneOfRank 4 = none := rfl
  simp only [hf, Option.isSome_none, Bool.false_eq_true, if_false, hn, h4, hx]

/-- What the arbiter leaves as it was: converter ports, cards, settings, request port, run control but for its state and
counts; of the census all but its request; and it clears no latch. -/
structure ArbiterFrame (s t : State) : Prop where
  ports : t.ports = s.ports
  cards : t.cards = s.cards
  settings : SameSettings s t
  port : SamePort s t
  number : t.run.number = s.run.number
  rawHigh : t.run.rawHigh = s.run.rawHigh
  fixture : t.run.fixture = s.run.fixture
  filterTimer : t.run.filterTimer = s.run.filterTimer
  mode : t.run.summary.mode = s.run.summary.mode
  latches : ∀ c, s.latches.has c = true → t.latches.has c = true
  census : t.census = s.census ∨ ∃ x, s.census = some x ∧ t.census = some { x with request := .inFlight }

theorem ArbiterFrame.refl (s : State) : ArbiterFrame s s :=
  ⟨rfl, rfl, ⟨rfl, rfl, rfl, rfl, rfl⟩, ⟨rfl, rfl, rfl⟩, rfl, rfl, rfl, rfl, rfl, fun _ h => h, .inl rfl⟩

theorem ArbiterFrame.trans {s t u : State} (h : ArbiterFrame s t) (g : ArbiterFrame t u) : ArbiterFrame s u where
  ports := g.ports.trans h.ports
  cards := g.cards.trans h.cards
  settings := by
    obtain ⟨a, b, c, d, e⟩ := h.settings
    obtain ⟨a', b', c', d', e'⟩ := g.settings
    exact ⟨a'.trans a, b'.trans b, c'.trans c, d'.trans d, e'.trans e⟩
  port := by
    obtain ⟨a, b, c⟩ := h.port
    obtain ⟨a', b', c'⟩ := g.port
    exact ⟨a'.trans a, b'.trans b, c'.trans c⟩
  number := g.number.trans h.number
  rawHigh := g.rawHigh.trans h.rawHigh
  fixture := g.fixture.trans h.fixture
  filterTimer := g.filterTimer.trans h.filterTimer
  mode := g.mode.trans h.mode
  latches c hc := g.latches c (h.latches c hc)
  census := by
    rcases h.census with h | ⟨x, hx, h⟩
    · rcases g.census with g | ⟨y, hy, g⟩
      · exact .inl (g.trans h)
      · exact .inr ⟨y, h ▸ hy, g⟩
    · rcases g.census with g | ⟨y, hy, g⟩
      · exact .inr ⟨x, hx, g.trans h⟩
      · rw [h] at hy; cases hy; exact .inr ⟨x, hx, g⟩

/-- A lane's event that leaves the converter ports alone is within the arbiter's frame. -/
theorem ArbiterFrame.of_lane {l : LaneNo} {s t : State} (h : LaneFrame l s t) (hp : t.ports = s.ports) :
    ArbiterFrame s t :=
  ⟨hp, h.cards, h.settings, h.port, h.number, h.rawHigh, h.fixture, h.filterTimer, h.mode, h.latches, .inl h.census⟩

/-- The arbiter's own writes to the link are within its frame. -/
theorem ArbiterFrame.of_link (s : State) (link : Link) : ArbiterFrame s { s with link := link } :=
  ⟨rfl, rfl, ⟨rfl, rfl, rfl, rfl, rfl⟩, ⟨rfl, rfl, rfl⟩, rfl, rfl, rfl, rfl, rfl, fun _ h => h, .inl rfl⟩

/-- What one grant, or the failures before it, can touch. -/
theorem ArbiterFrame.grantFrom (fuel : Nat) (last : Fin 5) (s : State) :
    ArbiterFrame s (State.grantFrom fuel last s) := by
  induction fuel generalizing last s with
  | zero => exact ArbiterFrame.refl s
  | succ n ih =>
    have failed : ∀ (r : Fin 5) (l : LaneNo), ArbiterFrame s (State.grantFrom n r
        (({ s with link := { s.link with lastGranted := r } } : State).laneCommandFailed l)) := fun r l =>
      ((ArbiterFrame.of_link s _).trans
        (ArbiterFrame.of_lane (LaneFrame.laneCommandFailed l _) (State.ports_laneCommandFailed _ l))).trans (ih r _)
    unfold State.grantFrom
    split
    · exact ArbiterFrame.refl s
    · split
      · exact ArbiterFrame.refl s
      · split
        · split
          · exact ArbiterFrame.refl s
          · rename_i x hx
            exact ⟨rfl, rfl, ⟨rfl, rfl, rfl, rfl, rfl⟩, ⟨rfl, rfl, rfl⟩, rfl, rfl, rfl, rfl, rfl, fun _ h => h,
              .inr ⟨x, hx, rfl⟩⟩
        · split
          · split
            · exact (ArbiterFrame.of_link s _).trans (ArbiterFrame.of_lane (LaneFrame.setLane _ _ _) rfl)
            · exact failed _ _
          · exact failed _ _

/-- What the arbiter can touch at the end of an event. -/
theorem ArbiterFrame.arbitrate (s : State) : ArbiterFrame s s.arbitrate := ArbiterFrame.grantFrom 5 _ s

theorem State.canonical_grantFrom (fuel : Nat) (last : Fin 5) {s : State} (h : s.canonical = true) :
    (State.grantFrom fuel last s).canonical = true := by
  induction fuel generalizing last s with
  | zero => exact h
  | succ n ih =>
    unfold State.grantFrom
    split
    · exact h
    · split
      · exact h
      · split
        · split <;> exact h
        · split
          · split
            · exact h
            · exact ih _ (State.canonical_laneCommandFailed (by exact h) _)
          · exact ih _ (State.canonical_laneCommandFailed (by exact h) _)

theorem State.canonical_arbitrate {s : State} (h : s.canonical = true) : s.arbitrate.canonical = true :=
  State.canonical_grantFrom 5 _ h

/-! ## Offline notices (R126, R162) -/

/-- What a card's going OFFLINE leaves as it was; its lanes may end their steps. -/
structure OfflineFrame (c : CardNo) (s t : State) : Prop where
  cards : t.cards = (s.setCard c { s.cardAt c with state := .offline }).cards
  latch : t.latches.cardOffline = true
  link : t.link = s.link
  census : t.census = s.census
  settings : SameSettings s t
  port : SamePort s t
  number : t.run.number = s.run.number
  fixture : t.run.fixture = s.run.fixture
  mode : t.run.summary.mode = s.run.summary.mode

theorem State.cardOffline_frame (s : State) (c : CardNo) : OfflineFrame c s (s.cardOffline c) := by
  have base : OfflineFrame c s ((s.setCard c { s.cardAt c with state := .offline }).latch .cardOffline) :=
    ⟨rfl, rfl, rfl, rfl, ⟨rfl, rfl, rfl, rfl, rfl⟩, ⟨rfl, rfl, rfl⟩, rfl, rfl, rfl⟩
  have next : ∀ (t : State) (l : LaneNo), OfflineFrame c s t → OfflineFrame c s
      (if (t.heldNails l).any (fun e => decide (cardOf e.2 = c)) then t.endLaneWith l .matrixFault else t) := by
    intro t l h
    split
    · have g := LaneFrame.endLaneWith l t .matrixFault
      obtain ⟨a, b, d, e, f⟩ := h.settings
      obtain ⟨a', b', d', e', f'⟩ := g.settings
      obtain ⟨i, j, k⟩ := h.port
      obtain ⟨i', j', k'⟩ := g.port
      exact ⟨g.cards.trans h.cards, g.latches .cardOffline h.latch, g.link.trans h.link, g.census.trans h.census,
        ⟨a'.trans a, b'.trans b, d'.trans d, e'.trans e, f'.trans f⟩, ⟨i'.trans i, j'.trans j, k'.trans k⟩,
        g.number.trans h.number, g.fixture.trans h.fixture, g.mode.trans h.mode⟩
    · exact h
  unfold State.cardOffline
  have fold : ∀ (ls : List LaneNo) (t : State), OfflineFrame c s t → OfflineFrame c s (ls.foldl
      (fun t l => if (t.heldNails l).any (fun e => decide (cardOf e.2 = c)) then t.endLaneWith l .matrixFault else t) t) := by
    intro ls
    induction ls with
    | nil => exact fun _ h => h
    | cons l ls ih => exact fun t h => ih _ (next t l h)
  exact fold allLanes _ base

theorem State.canonical_cardOffline {s : State} (h : s.canonical = true) (c : CardNo) :
    (s.cardOffline c).canonical = true := by
  unfold State.cardOffline
  have fold : ∀ (ls : List LaneNo) (t : State), t.canonical = true → (ls.foldl
      (fun t l => if (t.heldNails l).any (fun e => decide (cardOf e.2 = c)) then t.endLaneWith l .matrixFault else t)
      t).canonical = true := by
    intro ls
    induction ls with
    | nil => exact fun _ h => h
    | cons l ls ih =>
      intro t h
      refine ih _ ?_
      dsimp only
      split
      · exact State.canonical_endLaneWith h l _
      · exact h
  exact fold allLanes _ (by simpa using h)

/-- With every lane IDLE a card's going OFFLINE is its own state and the latch alone. -/
theorem State.cardOffline_of_idle {s : State} (h : s.allLanesIdle = true) (c : CardNo) :
    s.cardOffline c = (s.setCard c { s.cardAt c with state := .offline }).latch .cardOffline := by
  have hi := (State.allLanesIdle_iff s).mp h
  unfold State.cardOffline
  generalize hb : (s.setCard c { s.cardAt c with state := .offline }).latch .cardOffline = b
  have hlanes : b.lanes = s.lanes := by subst hb; rfl
  have stay : ∀ ls : List LaneNo, ls.foldl
      (fun t l => if (t.heldNails l).any (fun e => decide (cardOf e.2 = c)) then t.endLaneWith l .matrixFault else t) b =
        b := by
    intro ls
    induction ls with
    | nil => rfl
    | cons l ls ih =>
      rw [List.foldl_cons, State.endLaneWith_of_idle (by rw [State.laneAt_congr hlanes]; exact hi l), ite_self]
      exact ih
  exact stay allLanes

/-! ## The course of a census (R164 to R166) -/

/-- The census goes on to its next card, which waits for the link. -/
theorem State.censusNext_goes_on {s : State} {x : Census} {next : CardNo} {rest : List CardNo} (hx : s.census = some x)
    (hr : x.remaining = next :: rest) :
    s.censusNext =
      { s with census := some { current := next, remaining := rest, stage := .identify, request := .waiting } } := by
  unfold State.censusNext; simp only [hx, hr]

/-- The census ends after its last card and latches CENSUS_DONE. -/
theorem State.censusNext_ends {s : State} {x : Census} (hx : s.census = some x) (hr : x.remaining = []) :
    s.censusNext = ({ s with census := none } : State).latch .censusDone := by
  unfold State.censusNext; simp only [hx, hr]

/-- The census engine's turn changes the census and the latches alone. -/
theorem State.censusNext_frame (s : State) :
    s.censusNext = { s with census := s.censusNext.census, latches := s.censusNext.latches } := by
  unfold State.censusNext
  split
  · rfl
  · split <;> rfl

/-- With no lane waiting and the link free, a census that waits is granted. -/
theorem State.arbitrate_census {s : State} {x : Census} (hl : s.noLaneWaits = true) (hf : s.link.inFlight = none)
    (hx : s.census = some x) (hw : x.request = .waiting) :
    s.arbitrate = { (s.sendCommand 4 x.command) with census := some { x with request := .inFlight } } := by
  have hlane : ∀ l, s.waits (rankOfLane l) = false := by
    intro l
    simp only [State.noLaneWaits, allLanes, List.all_cons, List.all_nil, Bool.and_true, Bool.and_eq_true,
      decide_eq_true_eq] at hl
    obtain ⟨h0, h1, h2, h3⟩ := hl
    rw [State.waits_lane, decide_eq_false_iff_not]
    fin_cases l <;> assumption
  have h4 : s.waits 4 = true := by
    have : laneOfRank 4 = none := rfl
    unfold State.waits; simp [this, hx, hw]
  refine State.grantFrom_census 4 hf ?_ hx
  cases hn : s.nextWaiting s.link.lastGranted with
  | none => rw [State.nextWaiting_eq_none] at hn; rw [hn 4] at h4; cases h4
  | some r =>
    have hr := (State.nextWaiting_eq_some hn).1
    cases hlr : laneOfRank r with
    | none => rw [(laneOfRank_eq_none r).mp hlr]
    | some l => rw [(laneOfRank_eq_some r l).mp hlr, hlane l] at hr; cases hr

end Sys2Proof.Machine
end

