-- ==== Sys2Proof/Laws/Dispatcher.lean ====
section
/-! SUPPORT. Laws of the Dispatcher (Machine/DispatcherEvents.lean): walk order and window, the entries an examination passes
over, and the binding of a dispatch. -/

namespace Sys2Proof.Machine

/-! ## Walk order -/

theorem State.perm_placeInWalk (s : State) (k : Slot) (ks : List Slot) : (s.placeInWalk k ks).Perm (k :: ks) := by
  induction ks with
  | nil => exact .refl _
  | cons x xs ih =>
    unfold State.placeInWalk
    split
    · exact .refl _
    · exact (ih.cons x).trans (.swap k x xs)

/-- An entry of the window is a candidate. -/
theorem State.mem_candidates_of_window {s : State} {k : Slot} (h : k ∈ s.window) : k ∈ s.candidates := by
  have hw : k ∈ s.walk := List.mem_of_mem_take h
  unfold State.walk at hw
  have fold : ∀ ks : List Slot, k ∈ ks.foldr s.placeInWalk [] → k ∈ ks := by
    intro ks
    induction ks with
    | nil => exact id
    | cons x xs ih =>
      intro hk
      rw [List.foldr_cons, (s.perm_placeInWalk x _).mem_iff] at hk
      rcases List.mem_cons.mp hk with rfl | hk
      · exact List.mem_cons_self
      · exact List.mem_cons_of_mem _ (ih hk)
  exact fold _ hw

/-- One of two slots comes before the other in walk order, or they are one slot. -/
theorem State.before_total (s : State) (a b : Slot) : s.before a b = true ∨ s.before b a = true ∨ a = b := by
  unfold State.before; split <;> simp only [decide_eq_true_eq, Fin.lt_def, Fin.ext_iff] <;> omega

theorem State.before_trans {s : State} {a b c : Slot} (h : s.before a b = true) (g : s.before b c = true) :
    s.before a c = true := by
  unfold State.before at *
  split at h
  · rename_i hr; simp only [hr, if_true, decide_eq_true_eq, Fin.lt_def] at *; omega
  · rename_i hr; simp only [hr, Bool.false_eq_true, if_false, decide_eq_true_eq, Fin.lt_def] at *; omega

/-! ## The window -/

/-- A slot passed over leaves the examination to the entries after it. -/
theorem State.examine_passes {s : State} {k : Slot} (h : s.passedOver k = true) (front : Bool) (rest : List Slot) :
    s.examine front (k :: rest) = s.examine false rest := by
  unfold State.passedOver at h
  conv => lhs; unfold State.examine
  cases hr : s.recordAt k with
  | none => rfl
  | some r =>
    simp only [hr, Bool.and_eq_true, Bool.not_eq_true', Bool.or_eq_true] at h
    obtain ⟨⟨⟨h1, h2⟩, h3⟩, h4⟩ := h
    simp only [h1, h2, h3, Bool.false_eq_true, if_false]
    cases hb : s.barrierHeld
    · simp only [Bool.false_eq_true, if_false]
      cases hl : s.idleLane with
      | none => rfl
      | some l => rw [hl, hb] at h4; simp at h4; simp [h4]
    · rfl

/-- A decision to dispatch is to an IDLE lane that can bind the record's nails, for a record whose cards are ONLINE. -/
theorem State.examine_dispatch {s : State} {front : Bool} {ks : List Slot} {k : Slot} {l : LaneNo}
    (h : s.examine front ks = .dispatch k l) :
    k ∈ ks ∧ (s.laneAt l).phase = .idle
      ∧ ∃ r, s.recordAt k = some r ∧ s.touchesDeadCard r = false ∧ s.bindable l r.program.nails = true := by
  induction ks generalizing front with
  | nil => simp [State.examine] at h
  | cons x xs ih =>
    have later : s.examine false xs = .dispatch k l → _ := fun h' =>
      (ih h').imp_left (List.mem_cons_of_mem x)
    unfold State.examine at h
    split at h
    · exact later h
    · rename_i r hr
      split at h
      · cases h
      · rename_i hd
        split at h
        · cases h
        · split at h
          · split at h
            · rename_i hb
              simp only [Bool.and_eq_true] at hb
              cases h
              exact ⟨List.mem_cons_self, (State.allLanesIdle_iff s).mp hb.1.2 0, r, hr, by simpa using hd, hb.2⟩
            · cases h
          · split at h
            · exact later h
            · split at h
              · exact later h
              · rename_i l' hl'
                split at h
                · rename_i hb
                  cases h
                  have := List.find?_some hl'
                  exact ⟨List.mem_cons_self, by simpa using this, r, hr, by simpa using hd, hb⟩
                · exact later h

/-! ## Binding (R37) -/

/-- Binding changes the Nail Map alone. -/
theorem State.bindNails_frame (s : State) (l : LaneNo) (es : List (Role × NailNo)) :
    s.bindNails l es = { s with nails := (s.bindNails l es).nails } := by
  unfold State.bindNails
  induction es generalizing s with
  | nil => rfl
  | cons e es ih => rw [List.foldl_cons, ih]; rfl

/-- A nail that the list does not name keeps its bindings. -/
theorem State.nailAt_bindNails_of_not_named (s : State) (l : LaneNo) (es : List (Role × NailNo)) (n : NailNo)
    (h : n ∉ es.map Prod.snd) : (s.bindNails l es).nailAt n = s.nailAt n := by
  unfold State.bindNails
  induction es generalizing s with
  | nil => rfl
  | cons e es ih =>
    simp only [List.map_cons, List.mem_cons, not_or] at h
    rw [List.foldl_cons, ih _ h.2, State.bindNail, State.nailAt_setNail, if_neg h.1]

/-- A nail that the list names once is bound to the lane on the bus of its role. -/
theorem State.nailAt_bindNails_of_named (s : State) (l : LaneNo) (es : List (Role × NailNo)) (role : Role) (n : NailNo)
    (hd : (es.map Prod.snd).Nodup) (h : (role, n) ∈ es) :
    (s.bindNails l es).nailAt n =
      { s.nailAt n with bindings := (s.nailAt n).bindings.set l.val (some role) l.isLt } := by
  induction es generalizing s with
  | nil => cases h
  | cons e es ih =>
    simp only [List.map_cons, List.nodup_cons] at hd
    have hstep : s.bindNails l (e :: es) = (s.bindNail l e).bindNails l es := rfl
    rw [hstep]
    rcases List.mem_cons.mp h with rfl | h
    · rw [State.nailAt_bindNails_of_not_named _ l es n hd.1, State.bindNail, State.nailAt_setNail, if_pos rfl]
    · have hne : n ≠ e.2 := fun he => hd.1 (he ▸ List.mem_map_of_mem h)
      rw [ih _ hd.2 h, State.bindNail, State.nailAt_setNail, if_neg hne]

theorem State.canonical_bindNails {s : State} (h : s.canonical = true) (l : LaneNo) (es : List (Role × NailNo)) :
    (s.bindNails l es).canonical = true := by
  unfold State.bindNails
  induction es generalizing s with
  | nil => exact h
  | cons e es ih => exact ih (State.canonical_setNail h _ _)

end Sys2Proof.Machine
end

