-- ==== Sys2Proof/Laws/Nails.lean ====
section
/-! SUPPORT. Laws of the tests that the nail requests make on records and entries (Machine/NailRequests.lean). -/

namespace Sys2Proof.Machine

/-- A nail is bound when a lane stands in its bindings (R35). -/
theorem NailEntry.isBound_iff (e : NailEntry) : e.isBound = true ↔ ∃ l : LaneNo, e.bindings[l] ≠ none := by
  unfold NailEntry.isBound
  rw [List.any_eq_true]
  constructor
  · rintro ⟨x, hx, h⟩
    obtain ⟨i, hi, rfl⟩ := List.getElem_of_mem hx
    have hi4 : i < 4 := by simpa using hi
    exact ⟨⟨i, hi4⟩, by simpa [Option.isSome_iff_ne_none] using h⟩
  · rintro ⟨l, h⟩
    exact ⟨e.bindings[l], by simp, by simpa [Option.isSome_iff_ne_none] using h⟩

/-- A record gains the NAIL reason when it names the nail and is READY, or PARKED without the reason (R45). -/
theorem StepSlot.gainsNail_iff (slot : StepSlot) (n : NailNo) :
    slot.gainsNail n = true ↔ ∃ r, slot.record = some r ∧ n ∈ r.program.nails.toList
      ∧ (r.status = .ready ∨ ∃ p : ParkReasons, r.status = .parked p ∧ p.nail = false) := by
  obtain ⟨mark, record⟩ := slot
  cases record with
  | none => simp [StepSlot.gainsNail]
  | some r =>
    simp only [StepSlot.gainsNail, Bool.and_eq_true, Bool.not_eq_true', NailList.names_iff, Option.some.injEq, exists_eq_left']
    cases h : r.status <;> simp [StepStatus.isHeld, StepStatus.reasons]

/-- A record loses the NAIL reason when it is PARKED with it, names the nail and names no RETIRED nail (R46). -/
theorem State.losesNail_iff (t : State) (slot : StepSlot) (n : NailNo) :
    t.losesNail n slot = true ↔ ∃ (r : StepRecord) (p : ParkReasons), slot.record = some r ∧ r.status = .parked p
      ∧ p.nail = true ∧ n ∈ r.program.nails.toList ∧ ∀ m ∈ r.program.nails.toList, (t.nailAt m).state ≠ .retired := by
  obtain ⟨mark, record⟩ := slot
  cases record with
  | none => simp [State.losesNail]
  | some r =>
    simp only [State.losesNail, Bool.and_eq_true, Bool.not_eq_true', NailList.names_iff, Option.some.injEq, exists_and_left,
      exists_eq_left', State.anyRetired]
    cases h : r.status <;> simp [StepStatus.isHeld, StepStatus.reasons, and_assoc]

/-- A PARKED record without its NAIL reason is PARKED with REQUESTED, or READY (R46). -/
theorem StepSlot.withoutNailReason_of_parked {slot : StepSlot} {r : StepRecord} {p : ParkReasons} (hr : slot.record = some r)
    (hp : r.status = .parked p) :
    slot.withoutNailReason =
      { slot with
        record := some { r with status := if p.requested then .parked { requested := true, nail := false } else .ready } } := by
  obtain ⟨mark, record⟩ := slot
  cases hr
  obtain ⟨q, _⟩ := p
  cases q <;> simp [StepSlot.withoutNailReason, hp, StepStatus.reasons, StepStatus.ofReasons]

/-- A record places a nail high by its own list or by that of its stored edit (R47). -/
theorem StepSlot.placesHigh_iff (slot : StepSlot) (n : NailNo) :
    slot.placesHigh n = true ↔ ∃ r, slot.record = some r
      ∧ (r.program.nails.srcHi = n ∨ r.program.nails.snsHi = some n
        ∨ ∃ p e q l, r.status = .held p (some e) q ∧ e.nails = some l ∧ (l.srcHi = n ∨ l.snsHi = some n)) := by
  obtain ⟨mark, record⟩ := slot
  cases record with
  | none => simp [StepSlot.placesHigh]
  | some r =>
    simp only [StepSlot.placesHigh, NailList.namesHigh, Bool.or_eq_true, decide_eq_true_eq, Option.some.injEq,
      exists_eq_left', or_assoc]
    refine or_congr_right (or_congr_right ?_)
    cases h : r.status with
    | ready => simp
    | parked p => simp
    | held p d q =>
      cases d with
      | none => simp
      | some e => cases hn : e.nails <;> simp [hn]

/-- A listed slot places a nail high exactly when some slot does. -/
theorem State.placesHigh_listed {s : State} (h : s.canonical = true) (n : NailNo) :
    (∃ x ∈ s.steps, x.2.placesHigh n = true) ↔ ∃ k, (s.slotAt k).placesHigh n = true := by
  constructor
  · rintro ⟨⟨k, v⟩, hm, hv⟩
    exact ⟨k, by rw [State.slotAt_of_listed h hm]; exact hv⟩
  · rintro ⟨k, hk⟩
    obtain ⟨r, hr, -⟩ := (StepSlot.placesHigh_iff _ n).mp hk
    have := State.listed_of_recordAt (s := s) (k := k) (r := r) hr
    exact ⟨(k, s.slotAt k), this, hk⟩

end Sys2Proof.Machine
end

