-- ==== Sys2Proof/Laws/PerInstr.lean ====
section
/-! SUPPORT. What holds of every command as syntax, by one lemma for each constructor: the framing of its request, if it is
one. -/

namespace Sys2Proof.Laws.Framing

open Sys2Proof.Machine

/-- The framing of a command: a well-formed command that is a request carries a catalogued code and a body of at most 60 bytes
(R173), and no two codes are given to one command. -/
def Statement (i : Instr) : Prop :=
  ∀ code f, requestOf i = some (code, f) → code ∈ catalogueCodes ∧ (i.wf = true → f.body.length ≤ 60)

theorem stepWrite (f : RequestFrame) : Statement (.stepWrite f) := by
  intro code g h
  cases h
  refine ⟨by decide, fun hw => ?_⟩
  simpa [Instr.wf, RequestFrame.wf] using hw

theorem stepEdit (f : RequestFrame) : Statement (.stepEdit f) := by
  intro code g h
  cases h
  refine ⟨by decide, fun hw => ?_⟩
  simpa [Instr.wf, RequestFrame.wf] using hw

theorem stepRead (f : RequestFrame) : Statement (.stepRead f) := by
  intro code g h
  cases h
  refine ⟨by decide, fun hw => ?_⟩
  simpa [Instr.wf, RequestFrame.wf] using hw

theorem stepPark (f : RequestFrame) : Statement (.stepPark f) := by
  intro code g h
  cases h
  refine ⟨by decide, fun hw => ?_⟩
  simpa [Instr.wf, RequestFrame.wf] using hw

theorem stepUnpark (f : RequestFrame) : Statement (.stepUnpark f) := by
  intro code g h
  cases h
  refine ⟨by decide, fun hw => ?_⟩
  simpa [Instr.wf, RequestFrame.wf] using hw

theorem stepRetire (f : RequestFrame) : Statement (.stepRetire f) := by
  intro code g h
  cases h
  refine ⟨by decide, fun hw => ?_⟩
  simpa [Instr.wf, RequestFrame.wf] using hw

theorem stepScan (f : RequestFrame) : Statement (.stepScan f) := by
  intro code g h
  cases h
  refine ⟨by decide, fun hw => ?_⟩
  simpa [Instr.wf, RequestFrame.wf] using hw

theorem stepScanVisit : Statement .stepScanVisit := fun _ _ h => nomatch h

theorem nailRead (f : RequestFrame) : Statement (.nailRead f) := by
  intro code g h
  cases h
  refine ⟨by decide, fun hw => ?_⟩
  simpa [Instr.wf, RequestFrame.wf] using hw

theorem nailLookup (f : RequestFrame) : Statement (.nailLookup f) := by
  intro code g h
  cases h
  refine ⟨by decide, fun hw => ?_⟩
  simpa [Instr.wf, RequestFrame.wf] using hw

theorem nailLookupVisit : Statement .nailLookupVisit := fun _ _ h => nomatch h

theorem nailRetire (f : RequestFrame) : Statement (.nailRetire f) := by
  intro code g h
  cases h
  refine ⟨by decide, fun hw => ?_⟩
  simpa [Instr.wf, RequestFrame.wf] using hw

theorem nailRestore (f : RequestFrame) : Statement (.nailRestore f) := by
  intro code g h
  cases h
  refine ⟨by decide, fun hw => ?_⟩
  simpa [Instr.wf, RequestFrame.wf] using hw

theorem nailCommonSet (f : RequestFrame) : Statement (.nailCommonSet f) := by
  intro code g h
  cases h
  refine ⟨by decide, fun hw => ?_⟩
  simp only [Instr.wf, RequestFrame.wf, Bool.and_eq_true, decide_eq_true_eq] at hw
  exact hw.1

theorem nailCommonClear (f : RequestFrame) : Statement (.nailCommonClear f) := by
  intro code g h
  cases h
  refine ⟨by decide, fun hw => ?_⟩
  simp only [Instr.wf, RequestFrame.wf, Bool.and_eq_true, decide_eq_true_eq] at hw
  exact hw.1

theorem cardRead (f : RequestFrame) : Statement (.cardRead f) := by
  intro code g h
  cases h
  refine ⟨by decide, fun hw => ?_⟩
  simpa [Instr.wf, RequestFrame.wf] using hw

theorem cardCensus (f : RequestFrame) : Statement (.cardCensus f) := by
  intro code g h
  cases h
  refine ⟨by decide, fun hw => ?_⟩
  simpa [Instr.wf, RequestFrame.wf] using hw

theorem runStart (f : RequestFrame) : Statement (.runStart f) := by
  intro code g h
  cases h
  refine ⟨by decide, fun hw => ?_⟩
  simpa [Instr.wf, RequestFrame.wf] using hw

theorem runAbortDrain (f : RequestFrame) : Statement (.runAbortDrain f) := by
  intro code g h
  cases h
  refine ⟨by decide, fun hw => ?_⟩
  simp only [Instr.wf, RequestFrame.wf, Bool.and_eq_true, decide_eq_true_eq] at hw
  exact hw.1

theorem runAbortForce (f : RequestFrame) : Statement (.runAbortForce f) := by
  intro code g h
  cases h
  refine ⟨by decide, fun hw => ?_⟩
  simp only [Instr.wf, RequestFrame.wf, Bool.and_eq_true, decide_eq_true_eq] at hw
  exact hw.1

theorem runSummary (f : RequestFrame) : Statement (.runSummary f) := by
  intro code g h
  cases h
  refine ⟨by decide, fun hw => ?_⟩
  simpa [Instr.wf, RequestFrame.wf] using hw

theorem timebaseSet (f : RequestFrame) : Statement (.timebaseSet f) := by
  intro code g h
  cases h
  refine ⟨by decide, fun hw => ?_⟩
  simpa [Instr.wf, RequestFrame.wf] using hw

theorem configSet (f : RequestFrame) : Statement (.configSet f) := by
  intro code g h
  cases h
  refine ⟨by decide, fun hw => ?_⟩
  simpa [Instr.wf, RequestFrame.wf] using hw

theorem configRead (f : RequestFrame) : Statement (.configRead f) := by
  intro code g h
  cases h
  refine ⟨by decide, fun hw => ?_⟩
  simpa [Instr.wf, RequestFrame.wf] using hw

theorem status (f : RequestFrame) : Statement (.status f) := by
  intro code g h
  cases h
  refine ⟨by decide, fun hw => ?_⟩
  simpa [Instr.wf, RequestFrame.wf] using hw

theorem enableSet (f : RequestFrame) : Statement (.enableSet f) := by
  intro code g h
  cases h
  refine ⟨by decide, fun hw => ?_⟩
  simpa [Instr.wf, RequestFrame.wf] using hw

theorem softReset (f : RequestFrame) : Statement (.softReset f) := by
  intro code g h
  cases h
  refine ⟨by decide, fun hw => ?_⟩
  simpa [Instr.wf, RequestFrame.wf] using hw

theorem unknownRequestFrame (bytes : List Byte) : Statement (.unknownRequestFrame bytes) := fun _ _ h => nomatch h

theorem overrunFrame (bytes : List Byte) : Statement (.overrunFrame bytes) := fun _ _ h => nomatch h

theorem replyCollection (count : Nat) : Statement (.replyCollection count) := fun _ _ h => nomatch h

theorem emptyCollection (count : Nat) : Statement (.emptyCollection count) := fun _ _ h => nomatch h

theorem hardReset : Statement .hardReset := fun _ _ h => nomatch h

theorem fxcChange (high : Bool) : Statement (.fxcChange high) := fun _ _ h => nomatch h

theorem fxcFilterExpiry : Statement .fxcFilterExpiry := fun _ _ h => nomatch h

theorem runElapsedTick : Statement .runElapsedTick := fun _ _ h => nomatch h

theorem examinationStep : Statement .examinationStep := fun _ _ h => nomatch h

theorem settleExpiry (lane : LaneNo) : Statement (.settleExpiry lane) := fun _ _ h => nomatch h

theorem converterTimeout (lane : LaneNo) : Statement (.converterTimeout lane) := fun _ _ h => nomatch h

theorem releaseWaitExpiry (lane : LaneNo) : Statement (.releaseWaitExpiry lane) := fun _ _ h => nomatch h

theorem ackTimeout : Statement .ackTimeout := fun _ _ h => nomatch h

theorem censusTimeout : Statement .censusTimeout := fun _ _ h => nomatch h

theorem acknowledgement (card : CardNo) : Statement (.acknowledgement card) := fun _ _ h => nomatch h

theorem descriptor (card : CardNo) (cardType operate release check : Byte) :
    Statement (.descriptor card cardType operate release check) := fun _ _ h => nomatch h

theorem parity (card : CardNo) : Statement (.parity card) := fun _ _ h => nomatch h

theorem strayAnswer (answer : LinkAnswer) : Statement (.strayAnswer answer) := fun _ _ h => nomatch h

theorem result (lane : LaneNo) (startNumber : Byte) (count : BitVec 24) (overrange fault : Bool) :
    Statement (.result lane startNumber count overrange fault) := fun _ _ h => nomatch h

theorem damagedResultFrame (lane : LaneNo) : Statement (.damagedResultFrame lane) := fun _ _ h => nomatch h

theorem transferBegin : Statement .transferBegin := fun _ _ h => nomatch h

theorem transferWithNoWholeByte : Statement .transferWithNoWholeByte := fun _ _ h => nomatch h

end Sys2Proof.Laws.Framing
end

