-- ==== Sys2Proof/Laws/Port.lean ====
section
/-! SUPPORT. Laws of the Request Port's operations (Machine/PortOps.lean): the three ways a request frame ends, what an owner's
answer becomes, collections, and lists of checks. -/

namespace Sys2Proof.Machine

/-! ## The transfer that ends -/

/-- With no transfer begun as a command of its own, the port state as it stands decides (log 2). -/
theorem State.startedIn_of_no_transfer {s : State} (h : s.transfer = none) : s.endingTransfer.startedIn = s.port.phase := by
  unfold State.endingTransfer; rw [h]; rfl

/-- A transfer in progress decides by the port state at its start. -/
theorem State.startedIn_of_transfer {s : State} {t : Transfer} (h : s.transfer = some t) :
    s.endingTransfer.startedIn = t.startedIn := by
  unfold State.endingTransfer; rw [h]; rfl

/-! ## A request frame that ends -/

/-- A request frame that is not taken is discarded with REQUEST_OVERRUN (R174). -/
theorem takeRequest_of_overrun (owner : List Byte → State → State × Answer) (code : Byte) (f : RequestFrame) {s : State}
    (h : ¬s.takes) : takeRequest owner code f s = (s.taken f).latch .requestOverrun := by
  unfold takeRequest; dsimp only; rw [if_pos h]; rfl

/-- A request frame taken whose body is too long is refused by the port (R173). -/
theorem takeRequest_of_long (owner : List Byte → State → State × Answer) (code : Byte) (f : RequestFrame) {s : State}
    (h : s.takes) (hl : 60 < f.body.length) : takeRequest owner code f s = (s.taken f).replied code f .badLength [] := by
  unfold takeRequest; dsimp only; rw [if_neg (not_not.mpr h), if_pos hl]; rfl

/-- A request frame taken whose body is not too long goes to its owner (R175). -/
theorem takeRequest_of_taken (owner : List Byte → State → State × Answer) (code : Byte) (f : RequestFrame) {s : State}
    (h : s.takes) (hl : f.body.length ≤ 60) :
    takeRequest owner code f s =
      (owner f.body (s.taken f)).1.takeAnswer { code := code, tag := f.tag, body := f.body }
        (owner f.body (s.taken f)).2 := by
  unfold takeRequest; dsimp only; rw [if_neg (not_not.mpr h), if_neg (not_lt.mpr hl)]; rfl

/-- An owner's reply is what the port has placed. -/
theorem takeRequest_of_reply {owner : List Byte → State → State × Answer} {code : Byte} {f : RequestFrame} {s t : State}
    {st : Status} {body : List Byte} (h : s.takes) (hl : f.body.length ≤ 60)
    (ho : owner f.body (s.taken f) = (t, .reply st body)) :
    takeRequest owner code f s = t.replied code f st body := by
  rw [takeRequest_of_taken owner code f h hl, ho]; rfl

/-- An owner's walk keeps the port HOLDING (R178). -/
theorem takeRequest_of_walk {owner : List Byte → State → State × Answer} {code : Byte} {f : RequestFrame} {s t : State}
    {w : Walk} (h : s.takes) (hl : f.body.length ≤ 60) (ho : owner f.body (s.taken f) = (t, .walking w)) :
    takeRequest owner code f s = { t with port := .holding { code := code, tag := f.tag, body := f.body } w } := by
  rw [takeRequest_of_taken owner code f h hl, ho]; rfl

/-! ## What a taken request leaves as it was -/

@[simp] theorem State.slotAt_taken (s : State) (f : RequestFrame) (k : Slot) : (s.taken f).slotAt k = s.slotAt k := (rfl)

@[simp] theorem State.recordAt_taken (s : State) (f : RequestFrame) (k : Slot) : (s.taken f).recordAt k = s.recordAt k :=
  (rfl)

@[simp] theorem State.nailAt_taken (s : State) (f : RequestFrame) (n : NailNo) : (s.taken f).nailAt n = s.nailAt n := (rfl)

@[simp] theorem State.laneAt_taken (s : State) (f : RequestFrame) (l : LaneNo) : (s.taken f).laneAt l = s.laneAt l := (rfl)

@[simp] theorem State.portAt_taken (s : State) (f : RequestFrame) (l : LaneNo) : (s.taken f).portAt l = s.portAt l := (rfl)

@[simp] theorem State.cardAt_taken (s : State) (f : RequestFrame) (c : CardNo) : (s.taken f).cardAt c = s.cardAt c := (rfl)

@[simp] theorem State.run_taken (s : State) (f : RequestFrame) : (s.taken f).run = s.run := (rfl)

@[simp] theorem State.census_taken (s : State) (f : RequestFrame) : (s.taken f).census = s.census := (rfl)

@[simp] theorem State.canonical_taken (s : State) (f : RequestFrame) : (s.taken f).canonical = s.canonical := (rfl)

/-! ## Checks in order -/

/-- No check fails exactly when every failure condition is false. -/
theorem firstFailing_eq_none (checks : List (Bool × Status)) :
    firstFailing checks = none ↔ ∀ c ∈ checks, c.1 = false := by
  induction checks with
  | nil => simp [firstFailing]
  | cons c cs ih => obtain ⟨b, st⟩ := c; cases b <;> simp [firstFailing, ih]

/-- The refusal of a list of checks is one of the list. -/
theorem firstFailing_mem {checks : List (Bool × Status)} {st : Status} (h : firstFailing checks = some st) :
    (true, st) ∈ checks := by
  induction checks with
  | nil => simp [firstFailing] at h
  | cons c cs ih =>
    obtain ⟨b, st'⟩ := c
    cases b
    · exact List.mem_cons_of_mem _ (ih (by simpa [firstFailing] using h))
    · simp only [firstFailing, if_true, Option.some.injEq] at h; simp [h]

/-- The first failing check of R11 has one refusal. -/
theorem FirstFailing.unique {passes : Nat → Prop} {a b : Status} (ha : FirstFailing passes a) (hb : FirstFailing passes b) :
    a = b := by
  obtain ⟨c, hc, rfl, nc, lc⟩ := ha
  obtain ⟨d, hd, rfl, nd, ld⟩ := hb
  have hcd : ¬ c.1 < d.1 := fun h => nc (ld c hc h)
  have hdc : ¬ d.1 < c.1 := fun h => nd (lc d hd h)
  have same : ∀ x ∈ checkRefusals, ∀ y ∈ checkRefusals, ¬ x.1 < y.1 → ¬ y.1 < x.1 → x.2 = y.2 := by decide
  exact same c hc d hd hcd hdc

/-! ## Collections (R176, R177) -/

/-- A transfer with no whole byte ends and does nothing (R172). -/
theorem collect_zero (s : State) : collect 0 s = { s with transfer := none } := rfl

/-- A collection keeps the port, or empties its reply buffer. -/
theorem collect_port (count : Nat) (s : State) : (collect count s).port = s.port ∨ (collect count s).port = .empty := by
  unfold collect
  split
  · exact .inl rfl
  · dsimp only
    split
    · split
      · exact .inr rfl
      · exact .inl rfl
    · exact .inl rfl

/-- A collection changes the port and its wires alone. -/
theorem collect_frame (count : Nat) (s : State) :
    collect count s =
      { s with
        port := (collect count s).port, transfer := (collect count s).transfer
        shiftedOut := (collect count s).shiftedOut } := by
  unfold collect
  split
  · rfl
  · dsimp only
    split
    · split <;> rfl
    · rfl

end Sys2Proof.Machine
end

