-- ==== Sys2Proof/Tests/Slice0.lean ====
section
/-! SUPPORT. Tests: ill-formed terms the check refuses, at most two small steps for each command, and for every statement
states and operands that meet its hypotheses. -/

namespace Sys2Proof.Tests

open Sys2Proof.Machine

set_option Elab.async false
set_option synthInstance.maxSize 4000
set_option synthInstance.maxHeartbeats 400000

/-! ## Helpers -/

/-- The next state of a command, if it is one. -/
def after (i : Instr) (s : State) : Option State :=
  match exec i s with
  | .next t => some t
  | .fault _ => none
  | .refused _ => none

/-- A request frame with tag 5. -/
def req (body : List Byte) : RequestFrame := { tag := 5, reserved := 0, body := body }

/-- The port with a reply to a frame of tag 5. -/
def replies (code : Byte) (st : Status) (body : List Byte) : PortState :=
  .replying { code := code, tag := 5, status := st, body := body }

/-- A card that is ONLINE: operate time 250 us, release time 100 us. -/
def onlineCard : CardEntry :=
  { CardEntry.blank with state := .online, descriptor := some { cardType := 1, operate := 250, release := 100 } }

/-- The part after its census, every card ONLINE. -/
def quiet : State :=
  { State.reset with
    cards := Vector.replicate 16 onlineCard, link := { State.reset.link with inFlight := none }, census := none }

/-- A MEASURE record on nails 0 and 4095, READY. -/
def measureStep : StepRecord :=
  { program :=
      { kind := .measure, orderKey := 7, barrier := false
        nails := { srcHi := 0, srcLo := 4095, snsHi := none, snsLo := none, guards := [] }
        timing := { baseRange := 2, settleClass := 0, capacitance := 0, extraSettle := 10, aperture := 100 }
        retryAllowance := 1, limits := .absolute (-100) 100 }
    stats := StepStats.fresh, status := .ready }

/-- A CONTACT record on the same nails, READY. -/
def contactStep : StepRecord :=
  { measureStep with program := { measureStep.program with kind := .contact, retryAllowance := 0 } }

/-- A record in another state. -/
def inState (r : StepRecord) (st : StepStatus) : StepRecord := { r with status := st }

/-- A MEASURE record as a dispatch leaves it. -/
def heldStep : StepRecord := inState measureStep (.held false none false)

/-- The part with one record, in slot 2047. -/
def oneStep (r : StepRecord) (mark : Bool) : State := { quiet with steps := [(2047, { runMark := mark, record := some r })] }

/-- A run in progress. -/
def inRun (st : RunState) (s : State) : State := { s with run := { s.run with state := st } }

/-- Lane 3 busy with the record of slot 2047, both its nails closed. -/
def busyLane (phase : LanePhase) (timer : Option LaneTimer) : Lane :=
  { Lane.blank with
    phase := phase, heldSlot := some 2047, closedCount := 2, rangeInUse := 2, releaseSet := [0, 15], timer := timer }

/-- A RUNNING run with lane 3 busy. -/
def busy (r : StepRecord) (v : Lane) : State := (inRun .running (oneStep r true)).setLane 3 v

/-- A command in flight, granted to a rank. -/
def flight (r : Fin 5) (c : LinkCommand) (resent : Bool) (s : State) : State :=
  { s with link := { s.link with inFlight := some { requester := r, command := c, resent := resent, timer := 50 } } }

/-- A STEP WRITE body: MEASURE, ABSOLUTE, range 2, retry 1, -100 to 100, nails 0 and 4095. -/
def writeBody (hi lo : Byte) : List Byte :=
  [hi, lo, 0, 0, 7, 2, 1, 0, 0, 0, 0, 0, 10, 0, 100, 0xFF, 0xFF, 0x9C, 0, 0, 100, 0, 0, 0, 0, 0, 0, 0] ++ [0, 0, 0x0F, 0xFF]

/-! ## Ill-formed terms -/

theorem test_wf_body_of_60 : (Instr.stepWrite (req (List.replicate 60 0))).wf = true := by decide

theorem test_wf_refuses_body_of_61 : (Instr.stepWrite (req (List.replicate 61 0))).wf = false := by decide

theorem test_wf_refuses_common_set_without_mark :
    (Instr.nailCommonSet (req [0, 0, 0])).wf = false ∧ (Instr.nailCommonSet (req [0, 0, 1])).wf = true := by decide

theorem test_wf_refuses_common_clear_with_mark :
    (Instr.nailCommonClear (req [0, 0, 1])).wf = false ∧ (Instr.nailCommonClear (req [0, 0, 0])).wf = true := by decide

theorem test_wf_refuses_drain_with_force_bit :
    (Instr.runAbortDrain (req [1])).wf = false ∧ (Instr.runAbortDrain (req [0])).wf = true := by decide

theorem test_wf_refuses_force_without_force_bit :
    (Instr.runAbortForce (req [0])).wf = false ∧ (Instr.runAbortForce (req [1])).wf = true := by decide

theorem test_wf_refuses_unknown_frame_that_is_sound :
    (Instr.unknownRequestFrame [0x61, 5, 0, 0]).wf = false ∧ (Instr.unknownRequestFrame [0x62, 5, 0, 0]).wf = false := by
  decide

theorem test_wf_refuses_unknown_frame_that_is_no_request :
    (Instr.unknownRequestFrame []).wf = false ∧ (Instr.unknownRequestFrame [0, 5, 0, 0]).wf = false
      ∧ (Instr.unknownRequestFrame [0x77, 5, 0, 0]).wf = true := by
  decide

theorem test_wf_refuses_overrun_that_is_no_request :
    (Instr.overrunFrame [0]).wf = false ∧ (Instr.overrunFrame []).wf = false ∧ (Instr.overrunFrame [1]).wf = true := by
  decide

theorem test_wf_refuses_collection_of_nothing :
    (Instr.replyCollection 0).wf = false ∧ (Instr.emptyCollection 0).wf = false ∧ (Instr.replyCollection 1).wf = true := by
  decide

/-! ## One step of each command -/

theorem test_stepWrite : (after (.stepWrite (req (writeBody 0xFF 0xFF))) quiet).map
    (fun t => (t.port, (t.slotAt 0).record, (t.nailAt 4095).refCount)) =
      some (replies 0x10 .ok [0, 0, 1, 0], some measureStep, 1) := by decide +kernel

theorem test_stepWrite_duplicate_nail :
    (after (.stepWrite (req ((writeBody 0 0).take 30 ++ [0, 0]))) quiet).map State.port =
      some (replies 0x10 .dupNail []) := by decide +kernel

theorem test_stepEdit : (after (.stepEdit (req [0x07, 0xFF, 0x01, 0, 9, 1])) (oneStep measureStep false)).map
    (fun t => (t.port, ((t.slotAt 2047).record.map (fun r => (r.program.orderKey, r.program.barrier))))) =
      some (replies 0x11 .ok [0x07, 0xFF, 1, 0], some (9, true)) := by decide +kernel

theorem test_stepEdit_deferred : (after (.stepEdit (req [0x07, 0xFF, 0x01, 0, 9, 1])) (oneStep heldStep true)).map
    (fun t => (t.port, ((t.slotAt 2047).record.map (fun r => r.program.orderKey)))) =
      some (replies 0x11 .deferred [0x07, 0xFF, 2, 0], some 7) := by decide +kernel

theorem test_stepRead : (after (.stepRead (req [0x07, 0xFF])) (oneStep measureStep true)).map State.port =
    some (replies 0x12 .ok
      ([0x07, 0xFF, 1, 0, 4, 0] ++ [0, 0, 7, 2, 1, 0, 0, 0, 0, 0, 10, 0, 100, 0xFF, 0xFF, 0x9C, 0, 0, 100, 0, 0, 0, 0, 0, 0, 0]
        ++ [0, 0, 0, 0, 0, 0] ++ [0, 0, 0, 0, 0, 0, 0, 0, 0, 0, 0] ++ [0, 0, 0x0F, 0xFF])) := by decide +kernel

theorem test_stepPark : (after (.stepPark (req [0x07, 0xFF])) (oneStep measureStep false)).map State.port =
    some (replies 0x13 .ok [0x07, 0xFF, 3, 1]) := by decide +kernel

theorem test_stepUnpark : (after (.stepUnpark (req [0x07, 0xFF]))
    (oneStep (inState measureStep (.parked { requested := true, nail := true })) false)).map State.port =
      some (replies 0x14 .ok [0x07, 0xFF, 3, 2]) := by decide +kernel

theorem test_stepRetire : (after (.stepRetire (req [0x07, 0xFF])) (oneStep measureStep true)).map
    (fun t => (t.port, t.slotAt 2047)) =
      some (replies 0x15 .ok [0x07, 0xFF, 0, 0], { runMark := true, record := none }) := by decide +kernel

theorem test_stepScan : (after (.stepScan (req [0x07, 0xFF, 0, 0, 0, 0])) quiet).map (fun t => t.port.phase) =
    some .holding := by decide +kernel

theorem test_stepScanVisit : (after .stepScanVisit { oneStep measureStep false with
    port := .holding { code := 0x16, tag := 5, body := [] } (.scan { verdicts := 0, states := 0, currentRun := false } 2047
      []) }).map State.port = some (replies 0x16 .ok [1, 0xFF, 0xFF, 0x07, 0xFF]) := by decide +kernel

theorem test_nailRead : (after (.nailRead (req [0x0F, 0xFF])) quiet).map State.port =
    some (replies 0x20 .ok [0x0F, 0xFF, 15, 0xFF, 0, 0, 0, 0, 0, 0, 0, 0, 0, 0]) := by decide +kernel

theorem test_nailLookup : (after (.nailLookup (req [0x0F, 0xFF, 0, 0])) quiet).map (fun t => t.port.phase) =
    some .holding := by decide +kernel

theorem test_nailLookupVisit : (after .nailLookupVisit { oneStep measureStep false with
    port := .holding { code := 0x21, tag := 5, body := [] } (.lookup 4095 2047 []) }).map State.port =
      some (replies 0x21 .ok [0, 0, 1, 0xFF, 0xFF, 0x07, 0xFF, 1]) := by decide +kernel

theorem test_nailRetire : (after (.nailRetire (req [0x0F, 0xFF])) (oneStep measureStep false)).map
    (fun t => (t.port, (t.slotAt 2047).reasonsByte)) =
      some (replies 0x22 .ok [0x0F, 0xFF, 15, 0xFF, 2, 0, 0, 0, 0, 0, 0, 0, 0, 0, 0, 1], 2) := by decide +kernel

theorem test_nailRestore : (after (.nailRestore (req [0x0F, 0xFF]))
    ({ oneStep (inState measureStep (.parked { requested := false, nail := true })) false with
      nails := [(4095, { NailEntry.blank with state := .retired })] })).map (fun t => (t.port, (t.slotAt 2047).stateCode)) =
      some (replies 0x23 .ok [0x0F, 0xFF, 15, 0xFF, 0, 0, 0, 0, 0, 0, 0, 0, 0, 0, 0, 1], 1) := by decide +kernel

theorem test_nailCommonSet : (after (.nailCommonSet (req [0x0F, 0xFF, 1])) (oneStep measureStep false)).map State.port =
    some (replies 0x24 .ok [0x0F, 0xFF, 15, 0xFF, 0, 1, 0, 0, 0, 0, 0, 0, 0, 0]) := by decide +kernel

theorem test_nailCommonSet_high_role :
    (after (.nailCommonSet (req [0, 0, 1])) (oneStep measureStep false)).map State.port =
      some (replies 0x24 .badRole []) := by decide +kernel

theorem test_nailCommonClear : (after (.nailCommonClear (req [0, 0, 0])) quiet).map State.port =
    some (replies 0x24 .ok [0, 0, 0, 0, 0, 0, 0, 0, 0, 0, 0, 0, 0, 0]) := by decide +kernel

theorem test_cardRead : (after (.cardRead (req [15])) quiet).map State.port =
    some (replies 0x30 .ok [15, 2, 1, 1, 250, 100, 0, 250, 0, 100]) := by decide +kernel

theorem test_cardCensus : (after (.cardCensus (req [15])) quiet).map
    (fun t => (t.port, t.link.sentCommand, (t.cardAt 15).state, (t.cardAt 14).state)) =
      some (replies 0x31 .started [15], some (.identify 15), .census, .online) := by decide +kernel

theorem test_runStart : (after (.runStart (req [1, 0, 9])) (oneStep measureStep true)).map
    (fun t => (t.port, (t.slotAt 2047).runMark)) = some (replies 0x40 .ok [0, 1, 1, 3], false) := by decide +kernel

theorem test_runStart_in_closed_fixture :
    (after (.runStart (req [1, 0, 0])) { quiet with run := { quiet.run with fixture := .closed } }).map
      (fun t => (t.port, t.latches.runDone)) = some (replies 0x40 .ok [0, 1, 4, 0], true) := by decide +kernel

theorem test_runAbortDrain : (after (.runAbortDrain (req [0])) (busy heldStep (busyLane .measuring none))).map
    (fun t => (t.port, (t.laneAt 3).phase)) = some (replies 0x41 .ok [3, 1], .measuring) := by decide +kernel

theorem test_runAbortForce : (after (.runAbortForce (req [1])) (busy heldStep (busyLane .measuring none))).map
    (fun t => (t.port, (t.laneAt 3).phase, t.link.sentCommand)) =
      some (replies 0x41 .ok [3, 2], .releasing, some (.openOne 15 0xFF 3 .srcLo)) := by decide +kernel

theorem test_runSummary : (after (.runSummary (req [])) quiet).map State.port =
    some (replies 0x42 .ok ([0, 0, 1, 0, 0, 0, 0, 0] ++ List.replicate 32 0)) := by decide +kernel

theorem test_timebaseSet : (after (.timebaseSet (req [0xF9, 0xF8, 0x01])) quiet).map State.port =
    some (replies 0x50 .ok [9, 0, 1, 0x00, 0x0F, 0x42, 0x40]) := by decide +kernel

theorem test_configSet : (after (.configSet (req [0, 0, 0, 0, 0, 9, 0, 0])) quiet).map State.port =
    some (replies 0x60 .ok [1, 0, 1, 0, 1, 3, 0, 1]) := by decide +kernel

theorem test_configRead : (after (.configRead (req [])) quiet).map State.port =
    some (replies 0x61 .ok [3, 0, 50, 0, 200, 2, 1, 0xF4, 9, 0, 1, 0x00, 0x0F, 0x42, 0x40]) := by decide +kernel

theorem test_status : (after (.status (req [0xFF])) { quiet with latches := { Conditions.clear with censusDone := true } }).map
    (fun t => (t.port, t.latches)) = some (replies 0x62 .ok [0x20, 0, 0, 0, 0, 0, 0, 0], Conditions.clear) := by
  decide +kernel

theorem test_enableSet : (after (.enableSet (req [0xFF])) quiet).map State.port =
    some (replies 0x63 .ok [0x3F, 0]) := by decide +kernel

theorem test_softReset : (after (.softReset (req [])) (busy heldStep (busyLane .measuring none))).map
    (fun t => (t.port, (t.slotAt 2047).stateCode, t.run.state, t.link.sentCommand)) =
      some (replies 0x6F .ok [], 1, .idle, some (.identify 0)) := by decide +kernel

theorem test_unknownRequestFrame : (after (.unknownRequestFrame [0x77, 5, 0, 0]) quiet).map State.port =
    some (replies 0x77 .badRequest []) := by decide +kernel

theorem test_overrunFrame : (after (.overrunFrame [0x61, 5, 0, 0]) { quiet with port := replies 0x6F .ok [] }).map
    (fun t => (t.port, t.latches.requestOverrun, t.shiftedOut)) =
      some (replies 0x6F .ok [], true, [0x6F, 5, 0, 0]) := by decide +kernel

theorem test_replyCollection : (after (.replyCollection 5) { quiet with port := replies 0x6F .ok [] }).map
    (fun t => (t.port, t.shiftedOut)) = some (.empty, [0x6F, 5, 0, 0, 0]) := by decide +kernel

theorem test_replyCollection_short : (after (.replyCollection 3) { quiet with port := replies 0x6F .ok [] }).map
    (fun t => (t.port, t.shiftedOut)) = some (replies 0x6F .ok [], [0x6F, 5, 0]) := by decide +kernel

theorem test_emptyCollection : (after (.emptyCollection 2) quiet).map (fun t => (t.port, t.shiftedOut)) =
    some (.empty, [0, 0]) := by decide +kernel

theorem test_hardReset : after .hardReset { busy heldStep (busyLane .measuring none) with shiftedOut := [1] } = some State.reset := by decide +kernel

theorem test_fxcChange : (after (.fxcChange true) quiet).map (fun t => (t.run.rawHigh, t.run.filterTimer, t.run.fixture)) =
    some (true, some 5000, .opened) := by decide +kernel

theorem test_fxcFilterExpiry :
    (after .fxcFilterExpiry { quiet with run := { quiet.run with rawHigh := true, filterTimer := some 1 } }).map
      (fun t => (t.run.fixture, t.run.filterTimer)) = some (.closed, none) := by decide +kernel

theorem test_runElapsedTick :
    (after .runElapsedTick (inRun .running quiet)).map (fun t => t.run.summary.elapsed) = some 1 := by decide +kernel

theorem test_examinationStep :
    (after .examinationStep { inRun .running (oneStep measureStep false) with exam := .examining }).map
      (fun t => ((t.slotAt 2047).stateCode, (t.laneAt 0).phase, t.link.sentCommand)) =
      some (2, .closing, some (.close 0 0 0 .srcHi)) := by decide +kernel

theorem test_settleExpiry : (after (.settleExpiry 3) (busy heldStep (busyLane .settling (some (.settle 9))))).map
    (fun t => ((t.laneAt 3).timer, (t.portAt 3).sentStart)) =
      some (some (.converterTimeout 300), some { number := 1, range := 2, aperture := 100 }) := by decide +kernel

theorem test_converterTimeout :
    (after (.converterTimeout 3) (busy heldStep (busyLane .measuring (some (.converterTimeout 300))))).map
      (fun t => ((t.laneAt 3).phase, (t.recordAt 2047).map (fun r => (r.stats.lastVerdict, r.stats.lastRange)))) =
      some (.releasing, some (some .converterFault, some 2)) := by decide +kernel

theorem test_releaseWaitExpiry :
    (after (.releaseWaitExpiry 3) (busy heldStep (busyLane .releasing (some (.releaseWait 100))))).map
      (fun t => (t.laneAt 3, (t.slotAt 2047).stateCode, t.run.state)) = some (Lane.blank, 1, .done) := by decide +kernel

theorem test_ackTimeout :
    (after .ackTimeout (flight 3 (.openOne 15 0xFF 3 .srcLo) false (busy heldStep { busyLane .releasing none with
      openPosition := 2, linkRequest := .inFlight }))).map
      (fun t => ((t.cardAt 15).state, (t.cardAt 15).timeoutSeen, t.link.sentCommand, t.latches.cardOffline)) =
      some (.offline, true, some (.openOne 0 0 3 .srcHi), true) := by decide +kernel

theorem test_censusTimeout : (after .censusTimeout State.reset).map (fun t => ((t.cardAt 0).state, t.link.sentCommand)) =
    some (.absent, some (.identify 1)) := by decide +kernel

theorem test_acknowledgement :
    (after (.acknowledgement 0) (flight 3 (.close 0 0 3 .srcHi) false (busy heldStep { busyLane .closing none with
      closedCount := 0, linkRequest := .inFlight }))).map (fun t => ((t.laneAt 3).closedCount, t.link.sentCommand)) =
      some (1, some (.close 15 0xFF 3 .srcLo)) := by decide +kernel

theorem test_acknowledgement_of_last_close :
    (after (.acknowledgement 15) (flight 3 (.close 15 0xFF 3 .srcLo) false (busy heldStep { busyLane .closing none with
      closedCount := 1, linkRequest := .inFlight }))).map (fun t => ((t.laneAt 3).phase, (t.laneAt 3).timer)) =
      some (.settling, some (.settle 260)) := by decide +kernel

theorem test_descriptor : (after (.descriptor 0 1 0 100 0x9B) State.reset).map
    (fun t => ((t.cardAt 0).descriptor, t.link.sentCommand)) =
      some (some { cardType := 1, operate := 1, release := 100 }, some (.openAll 0)) := by decide +kernel

theorem test_parity : (after (.parity 0) State.reset).map
    (fun t => ((t.cardAt 0).paritySeen, t.link.inFlight.map InFlight.resent)) = some (true, some true) := by decide +kernel

theorem test_strayAnswer : after (.strayAnswer (.parity 1)) State.reset = some State.reset := by decide +kernel

theorem test_result : (after (.result 3 0 50 false false) ((busy heldStep (busyLane .measuring none)).setPort 3
    { ConverterPort.blank with outstanding := some 0 })).map
      (fun t => ((t.recordAt 2047).map (fun r => (r.stats.lastVerdict, r.stats.lastValue)), (t.laneAt 3).phase)) =
      some (some (some .pass, some 50), .releasing) := by decide +kernel

theorem test_result_late : (after (.result 3 1 50 false false) quiet).map (fun t => t.latches.lateResult) = some true := by
  decide +kernel

theorem test_damagedResultFrame : after (.damagedResultFrame 3) quiet = some quiet := by decide +kernel

theorem test_transferBegin : (after .transferBegin quiet).map State.transfer =
    some (some { startedIn := .empty, shiftOut := [] }) := by decide +kernel

theorem test_transferWithNoWholeByte :
    (after .transferWithNoWholeByte { quiet with transfer := some { startedIn := .empty, shiftOut := [] } }).map
      State.transfer = some none := by decide +kernel

/-! ## Hypotheses that are met -/

theorem witness_StepRunsFrontCommand : ({ quiet with pending := [.hardReset] } : State).pending = .hardReset :: [] := rfl

theorem witness_NothingToAct_idle :
    quiet.pending = [] ∧ (∀ l m, (quiet.laneAt l).timer ≠ some (.settle m))
      ∧ (∀ l m, (quiet.laneAt l).timer ≠ some (.converterTimeout m))
      ∧ (∀ l m, (quiet.laneAt l).timer ≠ some (.releaseWait m)) ∧ quiet.run.filterTimer = none ∧ quiet.exam = .waiting
      ∧ quiet.run.state ≠ .running ∧ quiet.run.state ≠ .draining := by
  have h : ∀ l, (quiet.laneAt l).timer = none := by decide
  refine ⟨rfl, fun l m => ?_, fun l m => ?_, fun l m => ?_, rfl, rfl, by decide, by decide⟩ <;> rw [h l] <;> simp

theorem witness_NothingToAct_other_command_in_flight :
    (∀ f, State.reset.link.inFlight = some f → f.command.isIdentify = true)
      ∧ (∀ f, (flight 4 (.openAll 0) false quiet).link.inFlight = some f → f.command.isIdentify = false) := by
  constructor <;> intro f h <;> cases h <;> rfl

theorem witness_NothingToAct_no_walk :
    (∀ q f k found, quiet.port ≠ .holding q (.scan f k found)) ∧ (∀ q n k found, quiet.port ≠ .holding q (.lookup n k found))
      ∧ ({ quiet with transfer := some { startedIn := .empty, shiftOut := [] } } : State).transfer ≠ none :=
  ⟨fun _ _ _ _ h => (nomatch h), fun _ _ _ _ h => (nomatch h), fun h => (nomatch h)⟩

theorem witness_ResetsMakeTheirValues :
    (busy heldStep (busyLane .measuring none)).takes ∧ (busy heldStep (busyLane .measuring none)).canonical = true
      ∧ (req []).body = [] ∧ ((busy heldStep (busyLane .measuring none)).slotAt 0).record = none
      ∧ ((busy heldStep (busyLane .measuring none)).slotAt 2047).record = some heldStep
      ∧ heldStep.status = .held false none false ∧ ((oneStep measureStep true).slotAt 2047).record = some measureStep
      ∧ measureStep.status.isHeld = false ∧ (oneStep measureStep true).takes := by decide +kernel

theorem witness_OverrunFramesAreDiscarded :
    ({ quiet with port := replies 0x6F .ok [] } : State).endingTransfer.startedIn ≠ .empty
      ∧ requestOf (.configRead (req [])) = some (0x61, req []) ∧ (1 : Byte) ≠ 0 := by decide +kernel

theorem witness_MalformedFramesAreRefused :
    quiet.takes ∧ (0x77 : Byte) ≠ 0 ∧ ([0x77] : List Byte).length < 4
      ∧ 60 < (byteAt [0x77, 5, 61, 0] 2).toNat
      ∧ ([0x77, 5, 1, 0] : List Byte).length ≠ 4 + (byteAt [0x77, 5, 1, 0] 2).toNat
      ∧ (4 ≤ ([0x77, 5, 0, 0] : List Byte).length ∧ (byteAt [0x77, 5, 0, 0] 2).toNat ≤ 60
        ∧ ([0x77, 5, 0, 0] : List Byte).length = 4 + (byteAt [0x77, 5, 0, 0] 2).toNat ∧ (0x77 : Byte) ∉ catalogueCodes)
      ∧ requestOf (.stepWrite (req (List.replicate 61 0))) = some (0x10, req (List.replicate 61 0))
      ∧ 60 < (req (List.replicate 61 0)).body.length := by decide +kernel

theorem witness_MalformedFramesAreRefused_length :
    quiet.takes ∧ requestOf (.status (req [])) = some (0x62, req []) ∧ (0x62, 1) ∈ fixedLengths ∧ (req []).body.length ≠ 1
      ∧ requestOf (.softReset (req [0])) = some (0x6F, req [0]) ∧ (0x6F, 0) ∈ fixedLengths ∧ (req [0]).body.length ≠ 0 := by
  decide +kernel

theorem witness_RefusalChangesOnlyThePort :
    requestOf (.configSet (req (List.replicate 8 0))) = some (0x60, req (List.replicate 8 0)) ∧ (inRun .armed quiet).takes
      ∧ (after (.configSet (req (List.replicate 8 0))) (inRun .armed quiet)).map State.port =
          some (.replying { code := 0x60, tag := 5, status := .busy, body := [] }) := by decide +kernel

theorem witness_CollectionReturnsTheReply :
    ({ quiet with port := .replying { code := 0x63, tag := 5, status := .ok, body := [0, 0] } } : State).transfer = none
      ∧ 1 ≤ 5 ∧ 4 + ([0, 0] : List Byte).length ≤ 6 ∧ 5 < 4 + ([0, 0] : List Byte).length := by decide

theorem witness_TransfersWithoutEffect :
    1 ≤ 1 ∧ quiet.endingTransfer.startedIn ≠ .replying ∧ quiet.endingTransfer.shiftOut = [] ∧ quiet.transfer = none := by
  decide +kernel

theorem witness_requests_taken :
    quiet.takes ∧ (req [0xFF]).body.length = 1 ∧ (req []).body = [] ∧ (req (List.replicate 8 0)).body.length = 8
      ∧ (req [0, 0, 0]).body.length = 3 ∧ quiet.run.state.active = false ∧ quiet.census = none
      ∧ (inRun .draining quiet).takes ∧ (inRun .draining quiet).run.state.active = true
      ∧ State.reset.takes ∧ State.reset.census ≠ none := by decide +kernel

theorem witness_ReadRequestsReturnRecords :
    (oneStep measureStep true).takes ∧ (word16At (req [0x07, 0xFF]).body 0).toNat = (2047 : Slot).val
      ∧ (oneStep measureStep true).recordAt 2047 = some measureStep
      ∧ (word16At (req [0x0F, 0xFF]).body 0).toNat = (4095 : NailNo).val
      ∧ 4096 ≤ (word16At (req [0x10, 0x00]).body 0).toNat ∧ (req []).body = []
      ∧ { measureStep.program.nails with guards := [1, 2, 3, 4] }.guards.length ≤ 4 := by decide +kernel

theorem witness_ReadRequestsReturnRecords_no_step :
    ∀ k : Slot, (word16At (req [0x08, 0x00]).body 0).toNat = k.val → (oneStep measureStep true).recordAt k = none := by
  intro k h
  have h2048 : (word16At (req [0x08, 0x00]).body 0).toNat = 2048 := by decide
  omega

theorem witness_StepWriteStoresRecord_named :
    quiet.takes ∧ quiet.writeAccepted (req (writeBody 0x07 0xFF)).body ∧ quiet.recordAt 2047 = none
      ∧ (word16At (req (writeBody 0x07 0xFF)).body 0).toNat = (2047 : Slot).val := by decide +kernel

/-- A table whose every entry is listed with one value reads that value. -/
theorem get_everywhere {α : Type} [DecidableEq α] {n : Nat} {d v : α} (hv : v ≠ d) (k : Fin n) :
    Table.get d ((List.finRange n).map (fun k => (k, v))) k = v := by
  have hwf : Table.wf d ((List.finRange n).map (fun k => (k, v))) = true := by
    rw [Table.wf_iff, List.pairwise_map]
    refine ⟨List.pairwise_lt_finRange n, fun e he => ?_⟩
    obtain ⟨_, _, rfl⟩ := List.mem_map.mp he
    exact hv
  exact ((Table.mem_iff_get hwf k v).mp (List.mem_map.mpr ⟨k, List.mem_finRange k, rfl⟩)).1

/-- The Step Table with a record in every slot. -/
def fullSteps : List (Slot × StepSlot) :=
  (List.finRange 2048).map (fun k => (k, ({ runMark := false, record := some measureStep } : StepSlot)))

theorem recordAt_fullTable (k : Slot) : ({ quiet with steps := fullSteps } : State).recordAt k = some measureStep := by
  have hv : ({ runMark := false, record := some measureStep } : StepSlot) ≠ StepSlot.blank := by decide
  have h := get_everywhere hv k
  unfold State.recordAt State.slotAt fullSteps
  rw [h]

/-- The part with slot 0 taken. -/
def slotZeroTaken : State := { quiet with steps := [(0, { runMark := false, record := some measureStep })] }

theorem witness_StepWriteStoresRecord_any :
    slotZeroTaken.takes ∧ slotZeroTaken.writeAccepted (writeBody 0xFF 0xFF) ∧ slotZeroTaken.recordAt 1 = none
      ∧ word16At (writeBody 0xFF 0xFF) 0 = 0xFFFF ∧ ∀ j : Slot, j < 1 → slotZeroTaken.recordAt j ≠ none := by
  refine ⟨by decide +kernel, by decide +kernel, by decide +kernel, by decide +kernel, fun j hj => ?_⟩
  have h1 : j.val < 1 := hj
  have : j = 0 := Fin.ext (show j.val = 0 by omega)
  subst this; decide +kernel

theorem witness_StepWriteStoresRecord_refused :
    ((oneStep measureStep false).writeAccepted (writeBody 0x07 0xFF)
        ∧ (word16At (writeBody 0x07 0xFF) 0).toNat = (2047 : Slot).val ∧ (oneStep measureStep false).recordAt 2047 ≠ none)
      ∧ (quiet.writeAccepted (writeBody 0x08 0x00) ∧ 2048 ≤ (word16At (writeBody 0x08 0x00) 0).toNat
        ∧ word16At (writeBody 0x08 0x00) 0 ≠ 0xFFFF)
      ∧ (quiet.writeAccepted (writeBody 0xFF 0xFE) ∧ 2048 ≤ (word16At (writeBody 0xFF 0xFE) 0).toNat
        ∧ word16At (writeBody 0xFF 0xFE) 0 ≠ 0xFFFF) := by decide +kernel

/-- The check numbered n is the first that fails. -/
theorem firstFailing_at {passes : Nat → Prop} {n : Nat} {st : Status} (hm : (n, st) ∈ checkRefusals) (hn : ¬ passes n)
    (hb : ∀ b ∈ checkRefusals, b.1 < n → passes b.1) : FirstFailing passes st := ⟨(n, st), hm, rfl, hn, hb⟩

/-- An empty body; nail 4096; nail 0 twice; range 7. -/
theorem witness_StepWriteStoresRecord_check_fails :
    (req []).body.length ≤ 60 ∧ FirstFailing (quiet.writeCheck []) .badLength
      ∧ FirstFailing (quiet.writeCheck ((writeBody 0 0).take 30 ++ [0x10, 0])) .badNail
      ∧ FirstFailing (quiet.writeCheck ((writeBody 0 0).take 30 ++ [0, 0])) .dupNail
      ∧ FirstFailing (quiet.writeCheck ((writeBody 0 0).set 5 7)) .badLimits :=
  ⟨by decide, firstFailing_at (n := 1) (by decide) (by decide +kernel) (by decide +kernel),
    firstFailing_at (n := 2) (by decide) (by decide +kernel) (by decide +kernel),
    firstFailing_at (n := 3) (by decide) (by decide +kernel) (by decide +kernel),
    firstFailing_at (n := 5) (by decide) (by decide +kernel) (by decide +kernel)⟩

theorem witness_StepWriteStoresRecord_full_table :
    ({ quiet with steps := fullSteps } : State).takes
      ∧ ({ quiet with steps := fullSteps } : State).writeAccepted (writeBody 0xFF 0xFF)
      ∧ ∀ k, ({ quiet with steps := fullSteps } : State).recordAt k ≠ none := by
  refine ⟨by decide +kernel, by decide +kernel, fun k => ?_⟩
  rw [recordAt_fullTable]; simp

theorem witness_StepEditAppliesOrDefers :
    (oneStep heldStep true).takes ∧ (req [0x07, 0xFF, 1, 0, 9, 1]).body.length ≤ 60
      ∧ (word16At (req [0x07, 0xFF, 1, 0, 9, 1]).body 0).toNat = (2047 : Slot).val
      ∧ (oneStep heldStep true).recordAt 2047 = some heldStep
      ∧ (oneStep heldStep true).editAccepted (req [0x07, 0xFF, 1, 0, 9, 1]).body heldStep.program.kind
      ∧ heldStep.status = .held false none false
      ∧ (oneStep measureStep true).recordAt 2047 = some measureStep
      ∧ (oneStep measureStep true).editAccepted ([0x07, 0xFF, 2, 0, 0, 1, 0, 2] : List Byte) measureStep.program.kind
      ∧ (readEdit [0x07, 0xFF, 2, 0, 0, 1, 0, 2]).hasNails = true
      ∧ measureStep.status.isHeld = false ∧ measureStep.program.nails.toList.Nodup := by decide +kernel

/-- An edit of slot 2047 alone; a FREE slot, slot 2048, a retiring record; nail 1 twice; RELATIVE limits of nominal 0. -/
theorem witness_StepEditAppliesOrDefers_refused :
    ([0x07, 0xFF] : List Byte).length < 3
      ∧ (3 ≤ ([0x07, 0xFF, 0] : List Byte).length ∧ quiet.recordAt 2047 = none)
      ∧ (∀ k : Slot, (word16At [0x08, 0x00, 0] 0).toNat ≠ k.val)
      ∧ ((oneStep (inState measureStep (.held false none true)) true).recordAt 2047 =
          some (inState measureStep (.held false none true)))
      ∧ FirstFailing ((oneStep measureStep true).editCheck [0x07, 0xFF, 2, 0, 0, 1, 0, 1] .measure) .dupNail
      ∧ FirstFailing
          ((oneStep measureStep true).editCheck ([0x07, 0xFF, 8, 1] ++ List.replicate 13 0) .measure) .badLimits := by
  refine ⟨by decide, by decide +kernel, fun k h => ?_, by decide +kernel,
    firstFailing_at (n := 3) (by decide) (by decide +kernel) (by decide +kernel),
    firstFailing_at (n := 7) (by decide) (by decide +kernel) (by decide +kernel)⟩
  have h2048 : (word16At [0x08, 0x00, 0] 0).toNat = 2048 := by decide
  omega

theorem witness_StepParkAndUnparkByState :
    (oneStep measureStep true).takes ∧ (req [0x07, 0xFF]).body.length = 2
      ∧ (word16At (req [0x07, 0xFF]).body 0).toNat = (2047 : Slot).val
      ∧ ((oneStep measureStep true).recordAt 2047 = some measureStep ∧ measureStep.status = .ready)
      ∧ (oneStep (inState measureStep (.parked { requested := true, nail := true })) false).recordAt 2047 =
          some (inState measureStep (.parked { requested := true, nail := true }))
      ∧ (oneStep (inState measureStep (.parked { requested := false, nail := true })) false).recordAt 2047 =
          some (inState measureStep (.parked { requested := false, nail := true }))
      ∧ (oneStep heldStep true).recordAt 2047 = some heldStep ∧ heldStep.status = .held false none false
      ∧ quiet.recordAt 2047 = none
      ∧ (oneStep (inState measureStep (.held false none true)) true).recordAt 2047 =
          some (inState measureStep (.held false none true))
      ∧ (req [0x08, 0x00]).body.length = 2 ∧ 2048 ≤ (word16At (req [0x08, 0x00]).body 0).toNat := by decide +kernel

theorem witness_StepRetireFreesOrPends :
    (oneStep measureStep true).takes ∧ (req [0x07, 0xFF]).body.length = 2
      ∧ (word16At (req [0x07, 0xFF]).body 0).toNat = (2047 : Slot).val
      ∧ (oneStep measureStep true).recordAt 2047 = some measureStep ∧ measureStep.status.isHeld = false
      ∧ measureStep.program.nails.toList.Nodup
      ∧ (oneStep heldStep true).recordAt 2047 = some heldStep ∧ heldStep.status = .held false none false
      ∧ (inState measureStep (.held false none true)).status = .held false none true := by decide +kernel

theorem witness_StepRetireFreesOrPends_free :
    ∀ k : Slot, (word16At (req [0, 0]).body 0).toNat = k.val → (oneStep measureStep true).recordAt k = none := by
  intro k h
  have : k = 0 := Fin.ext (by rw [← h]; rfl)
  subst this; decide +kernel

theorem witness_WalksVisitSlotsInOrder_begin :
    quiet.takes
      ∧ ((req [0x07, 0xFF, 0, 0, 0, 0]).body.length = 6 ∧ (word16At (req [0x07, 0xFF, 0, 0, 0, 0]).body 0).toNat = (2047 : Slot).val)
      ∧ 2048 ≤ (word16At (req [0x08, 0x00, 0, 0, 0, 0]).body 0).toNat
      ∧ ((req [0x0F, 0xFF, 0x07, 0xFF]).body.length = 4 ∧ (word16At (req [0x0F, 0xFF, 0x07, 0xFF]).body 0).toNat = (4095 : NailNo).val
        ∧ (word16At (req [0x0F, 0xFF, 0x07, 0xFF]).body 2).toNat = (2047 : Slot).val)
      ∧ 4096 ≤ (word16At (req [0x10, 0x00, 0, 0]).body 0).toNat
      ∧ ((word16At (req [0x0F, 0xFF, 0x08, 0x00]).body 0).toNat < 4096
        ∧ 2048 ≤ (word16At (req [0x0F, 0xFF, 0x08, 0x00]).body 2).toNat) := by decide +kernel

/-- A STEP SCAN walk that stands before a slot with some slots collected. -/
def scanning (k : Slot) (found : List Slot) : State :=
  { oneStep measureStep false with
    port := .holding { code := 0x16, tag := 5, body := [] } (.scan { verdicts := 0, states := 0, currentRun := false } k
      found) }

/-- Goes on at 30 and 31 found; ends at slot 2047, and at the 32nd match before it. -/
theorem witness_WalksVisitSlotsInOrder_visit :
    ((2047 : Slot).val = (2046 : Slot).val + 1 ∧ (List.replicate 31 (0 : Slot)).length < 32
        ∧ ((scanning 2046 (List.replicate 31 0)).slotAt 2046).record = none)
      ∧ (2047 : Slot).val = 2047
      ∧ 32 ≤ (List.replicate 31 (0 : Slot) ++ [2047]).length
      ∧ ({ verdicts := 0, states := 0, currentRun := false } : ScanFilter).selects 0
          ((scanning 2047 (List.replicate 31 0)).slotAt 2047) = true
      ∧ ((oneStep measureStep false).slotAt 2047).roleOf 4095 = some .srcLo := by decide +kernel

theorem witness_NailRetireAndRestoreMoveRecords :
    (oneStep measureStep false).takes ∧ (oneStep measureStep false).canonical = true ∧ (req [0x0F, 0xFF]).body.length = 2
      ∧ (word16At (req [0x0F, 0xFF]).body 0).toNat = (4095 : NailNo).val
      ∧ ((oneStep measureStep false).nailAt 4095).state = .service
      ∧ ({ oneStep measureStep false with nails := [(4095, { NailEntry.blank with state := .retired })] } : State).canonical
          = true
      ∧ (({ oneStep measureStep false with nails := [(4095, { NailEntry.blank with state := .retired })] } : State).nailAt
          4095).state = .retired
      ∧ ({ oneStep measureStep false with nails := [(4095, { NailEntry.blank with state := .suspect })] } : State).canonical
          = true
      ∧ (req [0x10, 0x00]).body.length = 2 ∧ 4096 ≤ (word16At (req [0x10, 0x00]).body 0).toNat := by decide +kernel

/-- A part whose nail 4095 has an entry of its own. -/
def withNail (e : NailEntry) : State := { oneStep measureStep false with nails := [(4095, e)] }

theorem witness_NailRetireAndRestoreMoveRecords_parked :
    (inState measureStep (.parked { requested := true, nail := true })).status = .parked { requested := true, nail := true }
      ∧ (oneStep (inState measureStep (.parked { requested := true, nail := true })) false).losesNail 4095
          { runMark := false, record := some (inState measureStep (.parked { requested := true, nail := true })) } = true
      ∧ ({ runMark := false, record := some measureStep } : StepSlot).gainsNail 4095 = true := by decide +kernel

theorem witness_NailCommonFollowsItsChecks :
    (withNail NailEntry.blank).takes ∧ (req [0x0F, 0xFF, 1]).body.length = 3
      ∧ (word16At (req [0x0F, 0xFF, 1]).body 0).toNat = (4095 : NailNo).val
      ∧ (byteAt (req [0x0F, 0xFF, 1]).body 2).getLsbD 0 = true ∧ (byteAt (req [0x0F, 0xFF, 0]).body 2).getLsbD 0 = false
      ∧ ((withNail { NailEntry.blank with common := true }).nailAt 4095).common = true
      ∧ ((withNail { NailEntry.blank with common := true }).nailAt 4095).isBound = false
      ∧ ((withNail { NailEntry.blank with bindings := Vector.replicate 4 (some .srcLo) }).nailAt 4095).isBound = true
      ∧ ((withNail { NailEntry.blank with common := true, bindings := Vector.replicate 4 (some .srcLo) }).nailAt
          4095).isBound = true
      ∧ ((withNail { NailEntry.blank with state := .suspect }).nailAt 4095).state = .suspect
      ∧ (∀ x ∈ (withNail NailEntry.blank).steps, x.2.placesHigh 4095 = false)
      ∧ (∃ x ∈ (withNail NailEntry.blank).steps, x.2.placesHigh 0 = true) ∧ (oneStep measureStep false).canonical = true
      ∧ (req [0x10, 0x00, 1]).body.length = 3 ∧ 4096 ≤ (word16At (req [0x10, 0x00, 1]).body 0).toNat := by decide +kernel

theorem witness_SettleTicksAreExact : 0 < (1 : Nat) ∧ 1 * 1000000 ≤ 1000000 * 1 ∧ 1 ≤ 255 ∧ 6 ≤ 6 ∧ 255 ≤ 255 := by decide

theorem witness_AbsoluteJudgmentIsInclusive : ((-100 : BitVec 24)).toInt ≤ (-100 : BitVec 24).toInt := by decide

theorem witness_RelativeJudgmentIsExact : 0 < (1 : BitVec 24).toInt ∧ (1000 : BitVec 16).toNat ≤ 1000 := by decide

theorem witness_JudgmentStagesInOrder :
    ((0 : Nat) < measureStep.program.retryAllowance.val ∧ 5 < 6) ∧ (measureStep.program.retryAllowance.val ≤ 1 ∨ 6 ≤ 2)
      ∧ measureStep.program.kind = .measure ∧ contactStep.program.kind = .contact := by decide

theorem witness_StatisticsFollowVerdict :
    (VerdictWrite.bare .pass none).verdict = .pass ∧ (VerdictWrite.bare .overrange none).verdict = .overrange
      ∧ (VerdictWrite.bare .aborted none).verdict = .aborted := by decide

theorem witness_SettleExpirySendsStart :
    ((busy heldStep (busyLane .settling (some (.settle 9)))).laneAt 3).timer = some (.settle 9)
      ∧ (busy heldStep (busyLane .settling (some (.settle 9)))).heldBy 3 = some (2047, heldStep) := by decide +kernel

/-- Lane 3 MEASURING with its START outstanding. -/
def measuring : State :=
  (busy heldStep (busyLane .measuring (some (.converterTimeout 300)))).setPort 3
    { ConverterPort.blank with outstanding := some 255, startNumber := 255 }

theorem witness_ResultVerdictEndsStep :
    measuring.linkServed ∧ (measuring.laneAt 3).phase = .measuring ∧ (measuring.portAt 3).outstanding = some 255
      ∧ measuring.heldBy 3 = some (2047, heldStep)
      ∧ judge measuring.run.summary.mode measuring.run.summary.weight.val heldStep
          { count := 0, overrange := false, fault := true, rangeUsed := (measuring.laneAt 3).rangeInUse
            retriesUsed := (measuring.laneAt 3).retriesUsed } = .verdict (VerdictWrite.bare .converterFault (some 2))
      ∧ (measuring.laneAt 3).closedCount = 1 + 1 ∧ heldStep.program.nails.entries[1]? = some (.srcLo, 4095)
      ∧ measuring.nailOnline 4095 = true ∧ measuring.link.inFlight = none := by
  refine ⟨fun _ => ?_, ?_⟩ <;> decide +kernel

theorem witness_ResultVerdictEndsStep_link_busy :
    (flight 4 (.openAll 0) false measuring).linkServed ∧ (flight 4 (.openAll 0) false measuring).link.inFlight ≠ none := by
  refine ⟨fun h => (by cases h), by decide +kernel⟩

theorem witness_ConverterTimeoutFaultsStep : (measuring.laneAt 3).timer = some (.converterTimeout 300) := by decide +kernel

theorem witness_OverrangeRetriesAtCoarserRange :
    heldStep.program.kind = .measure ∧ (measuring.laneAt 3).retriesUsed < heldStep.program.retryAllowance.val
      ∧ (measuring.laneAt 3).rangeInUse < 6
      ∧ (retrySettle heldStep.program.timing ((measuring.laneAt 3).rangeInUse + 1) measuring.tick).1 = 10
      ∧ (retrySettle { heldStep.program.timing with extraSettle := 0 } 3 measuring.tick).1 = 0 := by decide +kernel

theorem witness_ReleaseEndResolvesStep :
    (busy heldStep (busyLane .releasing (some (.releaseWait 1)))).canonical = true
      ∧ ((busy heldStep (busyLane .releasing (some (.releaseWait 1)))).laneAt 3).timer = some (.releaseWait 1)
      ∧ ((busy heldStep (busyLane .releasing (some (.releaseWait 1)))).laneAt 3).heldSlot = some 2047
      ∧ (busy heldStep (busyLane .releasing (some (.releaseWait 1)))).recordAt 2047 = some heldStep
      ∧ heldStep.status = .held false none false
      ∧ (inState measureStep (.held true none true)).status = .held true none true
      ∧ heldStep.program.nails.toList.Nodup := by decide +kernel

/-- The edit of the nail list of slot 2047 to nails 1 and 2. -/
def nailEdit : StepEdit := (readEdit [0x07, 0xFF, 2, 0, 0, 1, 0, 2]).edit

theorem witness_ReleaseEndResolvesStep_deferred_nails :
    (busy (inState measureStep (.held false (some nailEdit) false)) (busyLane .releasing (some (.releaseWait 1)))).recordAt
        2047 = some (inState measureStep (.held false (some nailEdit) false))
      ∧ nailEdit.nails = some { srcHi := 1, srcLo := 2, snsHi := none, snsLo := none, guards := [] }
      ∧ nailEdit.nails.map (fun l => decide l.toList.Nodup) = some true := by decide +kernel

theorem witness_UnusableAnswersAreDiscarded :
    (quiet.laneAt 3).phase ≠ .measuring ∧ (measuring.portAt 3).outstanding ≠ some 0
      ∧ (∀ f, State.reset.link.inFlight = some f → f.command.isIdentify = true ∨ f.command.card ≠ 0)
      ∧ (∀ f, State.reset.link.inFlight = some f → f.command.isIdentify = false ∨ f.command.card ≠ 15)
      ∧ (∀ f, State.reset.link.inFlight = some f → f.command.card ≠ 15) := by
  refine ⟨by decide +kernel, by decide +kernel, ?_, ?_, ?_⟩ <;> intro f h <;> cases h
  · exact .inl rfl
  · exact .inr (by decide)
  · decide

/-- Lane 3 waiting for the link. -/
def waiting : State := busy heldStep { busyLane .closing none with closedCount := 1, linkRequest := .waiting }

/-- One HELD record, held by lane 3, matches. -/
theorem heldMatches_of {s : State} (hs : s.steps = [(2047, { runMark := true, record := some heldStep })])
    (hv : (s.laneAt 3).heldSlot = some 2047) (hp : (s.laneAt 3).phase ≠ .idle)
    (hl : ∀ l, l ≠ 3 → s.laneAt l = Lane.blank) : s.heldMatches := by
  have hr (k : Slot) : s.recordAt k = if (2047 : Slot) = k then some heldStep else none := by
    unfold State.recordAt State.slotAt
    rw [hs, Table.get_cons]
    split <;> rfl
  have only (l : LaneNo) (h : (s.laneAt l).phase ≠ .idle) : l = 3 := by
    by_contra hne; rw [hl l hne] at h; exact h rfl
  refine ⟨fun l h => ?_, fun l h => ?_, fun l m hl' hm _ => by rw [only l hl', only m hm], fun k r hk hh => ?_⟩
  · rw [only l h]
    exact ⟨2047, heldStep, hv, by rw [hr, if_pos rfl], rfl⟩
  · exact hl l (fun h3 => hp (h3 ▸ h))
  · rw [hr] at hk
    split at hk
    · rename_i h; subst h; exact ⟨3, hp, hv⟩
    · cases hk

theorem witness_GrantGoesToNextWaitingRank :
    (flight 4 (.openAll 0) false quiet).link.inFlight ≠ none ∧ (∀ r, quiet.waits r = false)
      ∧ waiting.link.inFlight = none ∧ waiting.grantable = true ∧ waiting.waits 3 = true
      ∧ waiting.arbitrate.link.inFlight.map InFlight.requester = some (rankOfLane 3) := by decide +kernel

/-- A CLOSE to an ONLINE card, and one to a card that is not. -/
theorem witness_GrantGoesToNextWaitingRank_lane :
    waiting.servedNext (rankOfLane 3) ∧ waiting.laneCommand 3 = some (.close 15 0xFF 3 .srcLo)
      ∧ (waiting.cardAt 15).state = .online ∧ waiting.heldMatches
      ∧ (waiting.setCard 15 CardEntry.blank).servedNext (rankOfLane 3)
      ∧ (waiting.setCard 15 CardEntry.blank).heldMatches
      ∧ ((waiting.setCard 15 CardEntry.blank).cardAt 15).state ≠ .online :=
  ⟨⟨by decide +kernel, by decide +kernel⟩, by decide +kernel, by decide +kernel,
    heldMatches_of rfl rfl (by decide +kernel) (by decide +kernel), ⟨by decide +kernel, by decide +kernel⟩,
    heldMatches_of rfl rfl (by decide +kernel) (by decide +kernel), by decide +kernel⟩

theorem witness_GrantGoesToNextWaitingRank_failed :
    waiting.canonical = true ∧ waiting.heldBy 3 = some (2047, heldStep) ∧ (waiting.laneAt 3).phase = .closing
      ∧ (busy heldStep (busyLane .releasing none)).heldBy 3 = some (2047, heldStep)
      ∧ ((busy heldStep (busyLane .releasing none)).laneAt 3).phase = .releasing := by decide +kernel

theorem witness_GrantGoesToNextWaitingRank_census :
    ({ quiet with census := some { current := 15, remaining := [], stage := .openAll, request := .waiting } } :
      State).servedNext 4 := ⟨by decide +kernel, by decide +kernel⟩

/-- Lane 3 with its command in flight, the link as the command says. -/
def commanded (c : LinkCommand) (v : Lane) : State :=
  flight 3 c false (busy heldStep { v with linkRequest := .inFlight })

theorem witness_CloseAcknowledgedAdvancesLane_next :
    (commanded (.close 0 0 3 .srcHi) { busyLane .closing none with closedCount := 0 }).link.inFlight =
        some { requester := rankOfLane 3, command := .close 0 0 3 .srcHi, resent := false, timer := 50 }
      ∧ ((commanded (.close 0 0 3 .srcHi) { busyLane .closing none with closedCount := 0 }).laneAt 3).linkRequest = .inFlight
      ∧ ((commanded (.close 0 0 3 .srcHi) { busyLane .closing none with closedCount := 0 }).laneAt 3).phase = .closing
      ∧ ((commanded (.close 0 0 3 .srcHi) { busyLane .closing none with closedCount := 0 }).laneAt 3).pendingEnd = none
      ∧ (commanded (.close 0 0 3 .srcHi) { busyLane .closing none with closedCount := 0 }).heldBy 3 = some (2047, heldStep)
      ∧ (commanded (.close 0 0 3 .srcHi) { busyLane .closing none with closedCount := 0 }).census = none
      ∧ (commanded (.close 0 0 3 .srcHi) { busyLane .closing none with closedCount := 0 }).grantable = true
      ∧ heldStep.program.nails.entries[0 + 1]? = some (.srcLo, 4095)
      ∧ (commanded (.close 0 0 3 .srcHi) { busyLane .closing none with closedCount := 0 }).nailOnline 4095 = true := by
  decide +kernel

/-- The next CLOSE, and the next OPEN, may be the command granted in that event. -/
theorem witness_acknowledged_lane_granted :
    (after (.acknowledgement 0) (commanded (.close 0 0 3 .srcHi) { busyLane .closing none with closedCount := 0 })).map
        (fun t => t.link.inFlight.map InFlight.requester) = some (some (rankOfLane 3))
      ∧ (after (.acknowledgement 15)
          (commanded (.openOne 15 0xFF 3 .srcLo) { busyLane .releasing none with openPosition := 2 })).map
        (fun t => t.link.inFlight.map InFlight.requester) = some (some (rankOfLane 3)) := by decide +kernel

theorem witness_CloseAcknowledgedAdvancesLane_last :
    ((commanded (.close 15 0xFF 3 .srcLo) { busyLane .closing none with closedCount := 1 }).laneAt 3).closedCount + 1 =
        heldStep.program.nails.entries.length
      ∧ (firstSettle heldStep.program.timing
          ((commanded (.close 15 0xFF 3 .srcLo) { busyLane .closing none with closedCount := 1 }).largestOperate
            heldStep.program.nails) quiet.tick).1 ≠ 0 := by decide +kernel

theorem witness_CloseAcknowledgedAdvancesLane_pending :
    ((commanded (.close 15 0xFF 3 .srcLo) { busyLane .closing none with closedCount := 1, pendingEnd := some .aborted }).laneAt
        3).pendingEnd = some .aborted
      ∧ heldStep.program.nails.entries[1 + 1 - 1]? = some (.srcLo, 4095) := by decide +kernel

theorem witness_OpenAcknowledgedGoesOn :
    ((commanded (.openOne 15 0xFF 3 .srcLo) { busyLane .releasing none with openPosition := 2 }).laneAt 3).openPosition = 1 + 1
      ∧ ((commanded (.openOne 15 0xFF 3 .srcLo) { busyLane .releasing none with openPosition := 2 }).laneAt 3).phase =
          .releasing
      ∧ (commanded (.openOne 15 0xFF 3 .srcLo) { busyLane .releasing none with openPosition := 2 }).grantable = true
      ∧ heldStep.program.nails.entries[0]? = some (.srcHi, 0)
      ∧ (commanded (.openOne 15 0xFF 3 .srcLo) { busyLane .releasing none with openPosition := 2 }).nailOnline 0 = true
      ∧ ((commanded (.openOne 0 0 3 .srcHi) { busyLane .releasing none with openPosition := 1 }).laneAt 3).openPosition = 0 + 1
      ∧ releaseWaitTicks
          (((commanded (.openOne 0 0 3 .srcHi) { busyLane .releasing none with openPosition := 1 }).laneAt 3).releaseSet.map
            (commanded (.openOne 0 0 3 .srcHi) { busyLane .releasing none with openPosition := 1 }).releaseTime)
          quiet.tick = 100 := by decide +kernel

/-- The nail before lies on a card that is not ONLINE. -/
theorem witness_OpenAcknowledgedGoesOn_release :
    let s := (commanded (.openOne 15 0xFF 3 .srcLo) { busyLane .releasing none with openPosition := 2 }).setCard 0
      CardEntry.blank
    s.canonical = true ∧ s.heldMatches ∧ s.heldBy 3 = some (2047, heldStep) ∧ s.census = none ∧ s.grantable = true
      ∧ s.nailOnline 0 = false ∧ (s.laneAt 3).openPosition = 1 + 1 :=
  ⟨by decide +kernel, heldMatches_of rfl rfl (by decide +kernel) (by decide +kernel), by decide +kernel, by decide +kernel,
    by decide +kernel, by decide +kernel, by decide +kernel⟩

theorem witness_OpenAcknowledgedGoesOn_skips :
    ((busy heldStep (busyLane .releasing none)).setCard 15 CardEntry.blank).heldNails 3 =
        [(.srcHi, 0), (.srcLo, 4095)]
      ∧ ((busy heldStep (busyLane .releasing none)).setCard 15 CardEntry.blank).nailOnline 4095 = false
      ∧ ([1, 255] : List Nat) ≠ [] ∧ 255 ∈ ([1, 255] : List Nat) := by decide +kernel

/-- A census of one card or more that has a command in flight. -/
def inCensus (c : CardNo) (rest : List CardNo) (stage : CensusStage) (command : LinkCommand) (resent : Bool) : State :=
  { flight 4 command resent quiet with
    census := some { current := c, remaining := rest, stage := stage, request := .inFlight } }

theorem witness_OpenAllAcknowledgedPutsCardOnline :
    (inCensus 15 [] .openAll (.openAll 15) false).link.inFlight =
        some { requester := 4, command := .openAll 15, resent := false, timer := 50 }
      ∧ (inCensus 15 [] .openAll (.openAll 15) false).noLaneWaits = true
      ∧ (inCensus 0 [1, 15] .openAll (.openAll 0) false).census ≠ none := by decide +kernel

theorem witness_DescriptorIsStoredOrRefused :
    (inCensus 15 [] .identify (.identify 15) false).link.inFlight =
        some { requester := 4, command := .identify 15, resent := false, timer := 50 }
      ∧ (inCensus 15 [] .identify (.identify 15) false).census.map Census.current = some 15
      ∧ (inCensus 15 [] .identify (.identify 15) false).noLaneWaits = true
      ∧ (inCensus 15 [] .identify (.identify 15) false).allLanesIdle = true
      ∧ ((1 : Byte) + 0 + 0 + 0xFF = 0 ∧ (1 : Byte) + 0 + 0 + 0xFE ≠ 0) := by decide +kernel

theorem witness_FirstParityResendsCommand :
    (inCensus 15 [] .identify (.identify 15) false).link.inFlight.map InFlight.resent = some false := by decide +kernel

theorem witness_FailedCommandTakesCardOffline :
    (inCensus 15 [] .identify (.identify 15) true).link.inFlight.map (fun f => (f.resent, f.command.card, f.requester)) =
        some (true, 15, 4)
      ∧ (inCensus 0 [1] .openAll (.openAll 0) false).link.inFlight.map (fun f => f.command.isIdentify) = some false
      ∧ (commanded (.close 15 0xFF 3 .srcLo) { busyLane .closing none with closedCount := 1 }).link.inFlight.map
          (fun f => (f.requester, f.command.isIdentify)) = some (rankOfLane 3, false)
      ∧ (inCensus 0 [1] .openAll (.openAll 0) false).allLanesIdle = true
      ∧ (inCensus 0 [1] .openAll (.openAll 0) false).noLaneWaits = true := by decide +kernel

/-- Lane 3's CLOSE of nail 4095 in flight. -/
theorem witness_FailedCommandTakesCardOffline_lane :
    let s := commanded (.close 15 0xFF 3 .srcLo) { busyLane .closing none with closedCount := 1 }
    s.link.inFlight.map (fun f => f.requester) = some (rankOfLane 3) ∧ (s.laneAt 3).linkRequest = .inFlight
      ∧ s.waits 4 = false ∧ s.canonical = true ∧ s.heldMatches ∧ s.pendingEndsSound := by
  refine ⟨by decide +kernel, by decide +kernel, by decide +kernel, by decide +kernel,
    heldMatches_of rfl rfl (by decide +kernel) (by decide +kernel), ?_⟩
  unfold State.pendingEndsSound; decide +kernel

theorem witness_CensusTimeoutMarksAbsent :
    State.reset.link.inFlight = some { requester := 4, command := .identify 0, resent := false, timer := 500 }
      ∧ State.reset.census ≠ none ∧ State.reset.noLaneWaits = true := by decide +kernel

theorem witness_CardRequestsReadAndIdentify :
    quiet.takes ∧ (req [15]).body.length = 1 ∧ (byteAt (req [15]).body 0).toNat = (15 : CardNo).val
      ∧ 16 ≤ (byteAt (req [16]).body 0).toNat ∧ byteAt (req [16]).body 0 ≠ 0xFF ∧ byteAt (req [0xFF]).body 0 = 0xFF
      ∧ byteAt (req [0xFE]).body 0 ≠ 0xFF ∧ quiet.run.state.active = false ∧ quiet.census = none
      ∧ quiet.link.inFlight = none ∧ quiet.noLaneWaits = true
      ∧ (byteAt (req [15]).body 0).toNat < 16 ∧ (inRun .armed quiet).run.state.active = true
      ∧ State.reset.census ≠ none := by decide +kernel

theorem witness_RunStartClearsAndStarts :
    (oneStep measureStep true).takes ∧ (req [3, 1, 4]).body.length = 3 ∧ (oneStep measureStep true).canonical = true
      ∧ (byteAt (req [3, 1, 4]).body 0).toNat = RunMode.learn.code ∧ quiet.run.fixture = .opened
      ∧ ({ quiet with run := { quiet.run with fixture := .closed } } : State).run.fixture = .closed
      ∧ (∀ mode : RunMode, (byteAt (req [0, 0, 0]).body 0).toNat ≠ mode.code)
      ∧ (∀ mode : RunMode, (byteAt (req [4, 0, 0]).body 0).toNat ≠ mode.code) := by
  refine ⟨by decide +kernel, by decide +kernel, by decide +kernel, by decide +kernel, by decide +kernel, by decide +kernel,
    fun m => ?_, fun m => ?_⟩ <;> cases m <;> decide

theorem witness_DrainStopsDispatching :
    (busy heldStep (busyLane .measuring none)).takes ∧ (req [0xFE]).body.length = 1
      ∧ (byteAt (req [0xFE]).body 0).getLsbD 0 = false ∧ (busy heldStep (busyLane .measuring none)).run.state = .running
      ∧ (inRun .armed quiet).run.state = .armed ∧ (inRun .draining quiet).run.state = .draining
      ∧ quiet.run.state.active = false := by decide +kernel

/-- A drain by request in progress with lane 3 busy. -/
def drained (reason : AbortReason) : State :=
  (inRun .draining (busy heldStep (busyLane .measuring none))).setAbortReason reason

theorem witness_ForceAbandonsEveryLane :
    (req [1]).body.length = 1 ∧ (byteAt (req [1]).body 0).getLsbD 0 = true ∧ (drained .drainRequest).takes
      ∧ (drained .drainRequest).run.state = .draining
      ∧ (drained .drainRequest).run.summary.abortReason = some .drainRequest
      ∧ (drained .forceRequest).run.summary.abortReason ≠ some .drainRequest
      ∧ (drained .fixtureOpen).run.summary.abortReason ≠ some .drainRequest := by decide +kernel

theorem witness_ForceAbandonsEveryLane_lanes :
    (drained .drainRequest).canonical = true ∧ (drained .drainRequest).heldMatches ∧ (drained .drainRequest).linkServed :=
  ⟨by decide +kernel, heldMatches_of rfl rfl (by decide +kernel) (by decide +kernel), fun _ => by decide +kernel⟩

theorem witness_FixtureFilterFollowsRawLevel :
    true ≠ quiet.run.rawHigh ∧ fixtureOf true ≠ quiet.run.fixture
      ∧ (quiet.settings.filterCode, 5000) ∈ [((1 : BitVec 2), 500), (2, 5000), (3, 20000)]
      ∧ (false ≠ ({ quiet with run := { quiet.run with rawHigh := true } } : State).run.rawHigh
        ∧ fixtureOf false = quiet.run.fixture)
      ∧ ({ quiet with settings := { quiet.settings with filterCode := 0 } } : State).settings.filterCode = 0 := by
  decide +kernel

/-- A filter interval running towards a raw level. -/
def filtering (high : Bool) (s : State) : State := { s with run := { s.run with rawHigh := high, filterTimer := some 5000 } }

theorem witness_FilteredFixtureActsOnRun :
    (filtering true quiet).run.filterTimer = some 5000 ∧ (filtering true quiet).run.state.active = false
      ∧ ((filtering true (drained .drainRequest)).run.state = .draining
        ∧ (filtering true (drained .drainRequest)).run.rawHigh = true)
      ∧ ((filtering false (drained .forceRequest)).run.state = .draining
        ∧ (filtering false (drained .forceRequest)).run.rawHigh = false)
      ∧ ((filtering true (inRun .armed quiet)).run.state = .armed ∧ (filtering true (inRun .armed quiet)).run.rawHigh = true)
      ∧ ((filtering false (inRun .running quiet)).run.state = .running
        ∧ (filtering false (inRun .running quiet)).run.rawHigh = false) := by decide +kernel

theorem witness_FilteredFixtureActsOnRun_lanes :
    (filtering false (drained .drainRequest)).run.summary.abortReason = some .drainRequest
      ∧ (filtering false (drained .drainRequest)).run.rawHigh = false
      ∧ (filtering false (drained .drainRequest)).canonical = true ∧ (filtering false (drained .drainRequest)).heldMatches
      ∧ (filtering false (drained .drainRequest)).linkServed :=
  ⟨by decide +kernel, by decide +kernel, by decide +kernel, heldMatches_of rfl rfl (by decide +kernel) (by decide +kernel),
    fun _ => by decide +kernel⟩

theorem witness_ElapsedCounterSaturates :
    (inRun .running quiet).run.state = .running ∧ (inRun .draining quiet).run.state = .draining := by decide +kernel

theorem witness_RunClosesWithItsCount :
    (busy heldStep (busyLane .releasing (some (.releaseWait 1)))).lanesQuiet
      ∧ (busy heldStep (busyLane .releasing (some (.releaseWait 1)))).run.state ≠ .done
      ∧ (busy heldStep (busyLane .releasing (some (.releaseWait 1)))).run.state ≠ .aborted
      ∧ (after (.releaseWaitExpiry 3) (busy heldStep (busyLane .releasing (some (.releaseWait 1))))).map
          (fun t => t.run.state) = some .done :=
  ⟨fun h => absurd rfl h, by decide +kernel, by decide +kernel, by decide +kernel⟩

/-- Three READY records, two of them of one order key. -/
def threeSteps : State :=
  inRun .running { quiet with
    steps := [(1, { runMark := false, record := some measureStep }),
      (5, { runMark := false
            record := some { measureStep with program := { measureStep.program with orderKey := 3 } } }),
      (2047, { runMark := false, record := some measureStep })] }

theorem witness_WindowIsFirstEightInWalkOrder :
    threeSteps.canonical = true ∧ threeSteps.window = [5, 1, 2047]
      ∧ (threeSteps.setSummary { threeSteps.run.summary with reverse := true }).window = [2047, 1, 5] := by decide +kernel

theorem witness_FirstActingTestDecides_pass :
    quiet.passedOver 0 = true ∧ (oneStep measureStep false).recordAt 2047 = some measureStep
      ∧ (oneStep measureStep false).touchesDeadCard measureStep = false
      ∧ (oneStep measureStep false).touchesSuspect measureStep = false
      ∧ (oneStep measureStep false).barrierHeld = false ∧ measureStep.program.barrier = false
      ∧ ((oneStep measureStep false).laneAt 0).phase = .idle
      ∧ (oneStep measureStep false).bindable 0 measureStep.program.nails = true := by decide +kernel

theorem witness_FirstActingTestDecides_skip :
    ((oneStep measureStep false).setCard 15 CardEntry.blank).touchesDeadCard measureStep = true
      ∧ (withNail { NailEntry.blank with state := .suspect }).touchesSuspect measureStep = true
      ∧ (withNail { NailEntry.blank with state := .suspect }).touchesDeadCard measureStep = false
      ∧ { measureStep.program with barrier := true }.barrier = true ∧ quiet.allLanesIdle = true
      ∧ waiting.allLanesIdle = false := by decide +kernel

theorem witness_SkipVerdictIsRecorded :
    (inRun .running (withNail { NailEntry.blank with state := .suspect })).run.state = .running
      ∧ ({ inRun .running (withNail { NailEntry.blank with state := .suspect }) with exam := .examining } : State).examine true
          ({ inRun .running (withNail { NailEntry.blank with state := .suspect }) with exam := .examining } : State).window =
            .skip 2047 .skipNail := by decide +kernel

theorem witness_DispatchBindsAndHolds :
    ({ threeSteps with exam := .examining } : State).examine true ({ threeSteps with exam := .examining } : State).window =
        .dispatch 5 0
      ∧ (threeSteps.recordAt 5).map (fun r => decide r.program.nails.toList.Nodup) = some true
      ∧ (∀ r, threeSteps.waits r = false) ∧ quiet.examine true quiet.window = .nothing
      ∧ (inRun .draining quiet).run.state ≠ .running := by decide +kernel

/-- A running part with lane 3 busy and its nails bound and counted. -/
def sound : State :=
  { busy heldStep (busyLane .releasing (some (.releaseWait 1))) with
    nails := [(0, { NailEntry.blank with refCount := 1, bindings := NailEntry.blank.bindings.set 3 (some .srcHi) }),
      (4095, { NailEntry.blank with refCount := 1, bindings := NailEntry.blank.bindings.set 3 (some .srcLo) })]
    pending := [.releaseWaitExpiry 3] }

theorem nailAt_sound (n : NailNo) :
    sound.nailAt n =
      if (0 : NailNo) = n then
        { NailEntry.blank with refCount := 1, bindings := NailEntry.blank.bindings.set 3 (some .srcHi) }
      else if (4095 : NailNo) = n then
        { NailEntry.blank with refCount := 1, bindings := NailEntry.blank.bindings.set 3 (some .srcLo) }
      else NailEntry.blank := rfl

theorem laneAt_sound (l : LaneNo) :
    sound.laneAt l = if l = 3 then busyLane .releasing (some (.releaseWait 1)) else Lane.blank := by
  revert l; decide +kernel

theorem witness_EveryStep_canonical : sound.canonical = true ∧ (after (.releaseWaitExpiry 3) sound).isSome = true := by
  decide +kernel

theorem witness_EveryStep_lanesQuiet : sound.lanesQuiet ∧ sound.idleLanesClean := by
  refine ⟨fun h => absurd rfl h, fun l h => ?_⟩
  have hl : l ≠ 3 := by rintro rfl; rw [laneAt_sound] at h; cases h
  refine ⟨by rw [laneAt_sound, if_neg hl], fun n => ?_⟩
  rw [nailAt_sound]
  fin_cases l
  all_goals first | exact absurd rfl hl | (split <;> [rfl; (split <;> rfl)])

/-- A census outside a run, and none in a run. -/
theorem witness_EveryStep_censusQuiet : State.reset.census ≠ none ∧ State.reset.censusQuiet ∧ sound.censusQuiet :=
  ⟨by decide, fun _ => rfl, fun h => absurd rfl h⟩

theorem witness_FirstActingTestDecides_idle_lane : sound.idleLanesClean ∧ (sound.laneAt 0).phase = .idle :=
  ⟨witness_EveryStep_lanesQuiet.2, by decide +kernel⟩

theorem witness_EveryStep_linkServed : sound.linkServed ∧ sound.pendingEndsSound := by
  refine ⟨fun _ => by decide +kernel, ?_⟩
  unfold State.pendingEndsSound; decide +kernel

theorem witness_EveryStep_referenceCounts : sound.listsSound = true ∧ sound.refsExact := by
  refine ⟨by decide +kernel, fun n => ?_⟩
  have hs : sound.steps = [(2047, { runMark := true, record := some heldStep })] := rfl
  have hn : heldStep.program.nails.names n = decide (n = 0 ∨ n = 4095) := by
    rw [Bool.eq_iff_iff, NailList.names_iff, decide_eq_true_eq]
    simp [NailList.mem_toList, heldStep, inState, measureStep]
  have hr : sound.refsOf n = if n = 0 ∨ n = 4095 then 1 else 0 := by
    unfold State.refsOf
    rw [hs]
    simp only [List.filter_cons, List.filter_nil, hn, decide_eq_true_eq]
    split <;> rfl
  rw [hr, nailAt_sound]
  by_cases h0 : n = 0
  · subst h0; rfl
  · by_cases h1 : n = 4095
    · subst h1; rfl
    · simp [h0, h1, Ne.symm h0, Ne.symm h1, NailEntry.blank]

theorem witness_EveryStep_heldMatches : sound.heldMatches :=
  heldMatches_of rfl rfl (by decide +kernel) (by decide +kernel)

end Sys2Proof.Tests
end

section
/-! SUPPORT. Judging and learning (sections 7.3 and 7.5): the judgments against limits, the deviation and the statistics. -/

namespace Sys2Proof.Machine

/-! ## Judgment between two bounds (R140, R142) -/

/-- The inclusive judgment of a whole number against two bounds, which R140 and R142 share. -/
def verdictBetween (lower upper x : Int) : Verdict :=
  if x < lower then .failLow else if upper < x then .failHigh else .pass

theorem judgeAbsolute_eq_verdictBetween (lo hi v : BitVec 24) :
    judgeAbsolute lo hi v = verdictBetween lo.toInt hi.toInt v.toInt := rfl

theorem judgeRelative_eq_verdictBetween (nominal : BitVec 24) (tolLo tolHi : BitVec 16) (v : BitVec 24) :
    judgeRelative nominal tolLo tolHi v =
      verdictBetween (nominal.toInt * (1000 - tolLo.toNat)) (nominal.toInt * (1000 + tolHi.toNat)) (1000 * v.toInt) := rfl

theorem verdictBetween_eq_failLow_iff {lower upper x : Int} :
    verdictBetween lower upper x = .failLow ↔ x < lower := by
  unfold verdictBetween
  split_ifs with hlow hhigh <;> simp [hlow]

/-- The bounds must be in order: a value below both is FAIL_LOW, not FAIL_HIGH. -/
theorem verdictBetween_eq_failHigh_iff {lower upper x : Int} (h : lower ≤ upper) :
    verdictBetween lower upper x = .failHigh ↔ upper < x := by
  unfold verdictBetween
  split_ifs with hlow hhigh
  · simpa using hlow.le.trans h
  · simp [hhigh]
  · simp [hhigh]

theorem verdictBetween_eq_pass_iff {lower upper x : Int} :
    verdictBetween lower upper x = .pass ↔ lower ≤ x ∧ x ≤ upper := by
  unfold verdictBetween
  split_ifs with hlow hhigh
  · simp [hlow]
  · simp [hhigh]
  · simpa using ⟨not_lt.mp hlow, not_lt.mp hhigh⟩

/-- The lower bound of a RELATIVE judgment never exceeds the upper one, whatever the tolerances. -/
theorem relativeBounds_ordered {nominal : Int} (h : 0 ≤ nominal) (tolLo tolHi : Nat) :
    nominal * (1000 - tolLo) ≤ nominal * (1000 + tolHi) :=
  mul_le_mul_of_nonneg_left (by omega) h

/-! ## The deviation (R143) -/

/-- The deviation before the clamp: the rounded magnitude with the sign of v − nominal. -/
def deviationQuotient (nominal v : Int) : Int :=
  if v < nominal then -(deviationMagnitude nominal v) else deviationMagnitude nominal v

theorem deviationOf_toInt (nominal v : BitVec 24) :
    (deviationOf nominal v).toInt = max (-32768) (min 32767 (deviationQuotient nominal.toInt v.toInt)) :=
  BitVec.toInt_ofInt_eq_self (by decide) (by omega) (by omega)

/-- Rounding half up of the magnitude, free of division: the quotient q is the one with (q − ½) n ≤ m < (q + ½) n. -/
theorem deviationMagnitude_bounds {nominal : Int} (h : 0 < nominal) (v : Int) :
    2 * (deviationMagnitude nominal v * nominal) ≤ 2 * ((v - nominal).natAbs * 1000) + nominal
    ∧ 2 * ((v - nominal).natAbs * 1000) < 2 * (deviationMagnitude nominal v * nominal) + nominal := by
  obtain ⟨n, rfl⟩ := Int.eq_ofNat_of_zero_le h.le
  have hdiv := Nat.div_add_mod ((v - n).natAbs * 1000) n
  have hmod := Nat.mod_lt ((v - n).natAbs * 1000) (Int.natCast_pos.mp h)
  unfold deviationMagnitude
  simp only [Int.natAbs_natCast]
  norm_cast
  split_ifs with hround
  · rw [Nat.add_mul, one_mul, Nat.mul_comm (_ / n)]; omega
  · rw [Nat.mul_comm (_ / n)]; omega

/-- The deviation is nearest to the exact quotient, and of two nearest it is the one farther from zero. -/
theorem deviationQuotient_rounds_half_away {nominal : Int} (h : 0 < nominal) (v : Int) :
    2 * ((v - nominal) * 1000 - deviationQuotient nominal v * nominal).natAbs ≤ nominal.natAbs
    ∧ (2 * ((v - nominal) * 1000 - deviationQuotient nominal v * nominal).natAbs = nominal.natAbs →
      ((v - nominal) * 1000).natAbs ≤ (deviationQuotient nominal v * nominal).natAbs) := by
  obtain ⟨hlow, hhigh⟩ := deviationMagnitude_bounds h v
  have hq : 0 ≤ (deviationMagnitude nominal v : Int) * nominal := by positivity
  unfold deviationQuotient
  split_ifs with hv
  · rw [Int.neg_mul]; omega
  · omega

/-! ## Statistics (R148) -/

theorem raiseSaturating_toNat {w : Nat} (x : BitVec w) :
    (raiseSaturating x).toNat = min (2 ^ w - 1) (x.toNat + 1) := by
  have hlt := x.isLt
  unfold raiseSaturating
  split_ifs with hmax
  · rw [hmax, BitVec.toNat_allOnes]; omega
  · have hne : x.toNat ≠ 2 ^ w - 1 := fun h => hmax (BitVec.eq_of_toNat_eq (h.trans BitVec.toNat_allOnes.symm))
    have hsum : x.toNat + 1 < 2 ^ w := by omega
    simp only [BitVec.toNat_add, BitVec.ofNat_eq_ofNat, BitVec.toNat_ofNat, Nat.add_mod_mod, Nat.mod_eq_of_lt hsum]
    omega

theorem isFailing_pass (mode : RunMode) : isFailing mode .pass = false := rfl

theorem isFailing_iff (mode : RunMode) (v : Verdict) :
    isFailing mode v = true ↔ v = .failLow ∨ v = .failHigh ∨ v = .noContact ∨ (v = .overrange ∧ mode = .test) := by
  cases v <;> simp [isFailing]

section
variable {st : StepStats} {mode : RunMode} {number : BitVec 16} {w : VerdictWrite}

theorem StepStats.afterVerdict_counts_of_pass (h : w.verdict = .pass) :
    (st.afterVerdict mode number w).consecutiveFails = 0
    ∧ (st.afterVerdict mode number w).failTotal = st.failTotal := by
  simp [afterVerdict, h, isFailing_pass]

theorem StepStats.afterVerdict_counts_of_failing (h : isFailing mode w.verdict = true) :
    (st.afterVerdict mode number w).consecutiveFails = raiseSaturating st.consecutiveFails
    ∧ (st.afterVerdict mode number w).failTotal = raiseSaturating st.failTotal := by
  have hpass : w.verdict ≠ .pass := fun hp => by rw [hp, isFailing_pass] at h; cases h
  simp [afterVerdict, h, hpass]

theorem StepStats.afterVerdict_counts_of_other (hpass : w.verdict ≠ .pass) (h : isFailing mode w.verdict = false) :
    (st.afterVerdict mode number w).consecutiveFails = st.consecutiveFails
    ∧ (st.afterVerdict mode number w).failTotal = st.failTotal := by
  simp [afterVerdict, h, hpass]

end

/-! ## The obligations -/

/-- Settles O25: both bounds are compared exactly, and the deviation is the rounded quotient, clamped. -/
theorem relativeJudgmentIsExact : Obligations.RelativeJudgmentIsExact := by
  intro nominal v tolLo tolHi range hnominal _
  have hordered := relativeBounds_ordered hnominal.le tolLo.toNat tolHi.toNat
  dsimp only [judgeValue]
  rw [judgeRelative_eq_verdictBetween]
  exact ⟨verdictBetween_eq_failLow_iff, verdictBetween_eq_failHigh_iff hordered, verdictBetween_eq_pass_iff, rfl, rfl,
    deviationOf nominal v, deviationQuotient nominal.toInt v.toInt, rfl, deviationOf_toInt nominal v,
    deviationQuotient_rounds_half_away hnominal v.toInt⟩

/-- Settles O24: with lo at most hi the three outcomes of the comparison do not overlap. -/
theorem absoluteJudgmentIsInclusive : Obligations.AbsoluteJudgmentIsInclusive := by
  intro lo hi v range hordered
  dsimp only [judgeValue]
  rw [judgeAbsolute_eq_verdictBetween]
  exact ⟨verdictBetween_eq_failLow_iff, verdictBetween_eq_failHigh_iff hordered, verdictBetween_eq_pass_iff, rfl, rfl, rfl⟩

/-- Settles O28, by the three rows of the table: PASS, the failing verdicts, and the rest. -/
theorem statisticsFollowVerdict : Obligations.StatisticsFollowVerdict := by
  intro st mode number w
  refine ⟨StepStats.afterVerdict_counts_of_pass, fun hfailing => ?failing, fun hother => ?other⟩
  case failing =>
    obtain ⟨hconsecutive, htotal⟩ := StepStats.afterVerdict_counts_of_failing (st := st) (number := number)
      ((isFailing_iff mode w.verdict).mpr hfailing)
    exact ⟨hconsecutive ▸ raiseSaturating_toNat _, htotal ▸ raiseSaturating_toNat _⟩
  case other =>
    refine StepStats.afterVerdict_counts_of_other ?_ ?_
    · intro hpass
      simp [hpass] at hother
    · rw [Bool.eq_false_iff, Ne, isFailing_iff]
      rcases hother with ⟨h, rfl⟩ | h | h | h | h | h | h <;> simp [h]

end Sys2Proof.Machine
end

section
/-! SUPPORT. The Request Port (sections 9.6 and 9.7): ATTN and the requests on the enables and the settings. -/

namespace Sys2Proof.Machine

/-! ## ATTN (R180) -/

/-- ATTN by the conditions' names, free of the order in which the line's six terms are joined. -/
theorem State.attn_iff (s : State) : s.attn = true ↔ ∃ c, s.latches.has c = true ∧ s.enables.has c = true := by
  constructor
  · intro h
    simp only [attn, Bool.or_eq_true, Bool.and_eq_true] at h
    rcases h with ((((h | h) | h) | h) | h) | h
    · exact ⟨.runDone, h⟩
    · exact ⟨.cardOffline, h⟩
    · exact ⟨.nailSuspect, h⟩
    · exact ⟨.requestOverrun, h⟩
    · exact ⟨.lateResult, h⟩
    · exact ⟨.censusDone, h⟩
  · rintro ⟨c, hlatch, henable⟩
    cases c <;> simp only [Conditions.has] at hlatch henable <;> simp [attn, hlatch, henable]

/-! ## The tick length (R49) -/

/-- The longest tick, at prescale code 15 and divisor 2047, is 1408 microseconds. -/
theorem Timebase.tickLength_le (t : Timebase) : t.tickLength ≤ 1408000000 := by
  have hprescale : t.prescale.toNat + 7 ≤ 22 := by have := t.prescale.isLt; omega
  have hdivisor : t.divisor.toNat + 1 ≤ 2048 := by have := t.divisor.isLt; omega
  calc t.tickLength ≤ 31250 * 22 * 2048 := Nat.mul_le_mul (Nat.mul_le_mul_left 31250 hprescale) hdivisor
    _ = 1408000000 := by norm_num

/-! ## Requests answered at once (R175) -/

/-- ENABLE SET with a body of its length (R182): the reply's first byte is the mask with bits 6 and 7 cleared. -/
theorem enableSetOwner_of_length {body : List Byte} (h : body.length = 1) (s : State) :
    enableSetOwner body s =
      ({ s with enables := Conditions.ofByte (byteAt body 0) }, .reply .ok [byteAt body 0 &&& 0x3F, s.latches.toByte]) := by
  unfold enableSetOwner
  rw [if_neg (not_not.mpr h), Conditions.toByte_ofByte]

/-- CONFIG READ with an empty body has no condition to check (R184). -/
theorem configReadOwner_nil (s : State) :
    configReadOwner [] s = (s, .reply .ok (settingsBody s.settings ++ timebaseBody s.timebase)) := rfl

theorem exec_enableSet (f : RequestFrame) (s : State) :
    exec (.enableSet f) s = .next (takeRequest enableSetOwner 0x63 f s) := rfl

theorem exec_configRead (f : RequestFrame) (s : State) :
    exec (.configRead f) s = .next (takeRequest configReadOwner 0x61 f s) := rfl

/-! ## The obligations -/

/-- Settles O12: the owner of ENABLE SET writes the enables alone, and ATTN is read off the state it leaves. -/
theorem enableSetReplacesEnables : Obligations.EnableSetReplacesEnables := by
  intro s f htakes hlength
  refine ⟨?effect, State.attn_iff _, rfl, rfl, rfl, rfl, rfl, rfl⟩
  case effect =>
    have howner := enableSetOwner_of_length hlength (s.taken f)
    rw [exec_enableSet, takeRequest_of_reply htakes (by omega) howner]
    rfl

/-- Settles O13: an owner that checks nothing but the length replies from the state as it stands, whatever the run and the
census. -/
theorem configReadReturnsSettings : Obligations.ConfigReadReturnsSettings := by
  intro s f htakes hbody
  constructor
  · have howner : configReadOwner f.body (s.taken f) =
        (s.taken f, .reply .ok (settingsBody s.settings ++ timebaseBody s.timebase)) :=
      hbody ▸ configReadOwner_nil (s.taken f)
    rw [exec_configRead, takeRequest_of_reply htakes (by simp [hbody]) howner]
    simp only [settingsBody, timebaseBody, State.tick, List.append_assoc]
  · exact s.timebase.tickLength_le.trans_lt (by norm_num)

end Sys2Proof.Machine
end

section
/-! SUPPORT. What one step can do, said once for the properties that every step keeps: the effects of the commands, free of
the port's part in them, and the inversion of a step into an effect. -/

namespace Sys2Proof.Machine

/-! ## The nails of a request (section 10.3) -/

theorem nailOf_val {w : BitVec 16} (h : w.toNat ≤ 4095) : (nailOf w).val = w.toNat := by
  simp only [nailOf, Fin.val_ofNat]
  exact Nat.mod_eq_of_lt (by omega)

/-- The nails a request names stand in the order of the numbers given. -/
theorem NailNames.toList_toNailList (g : NailNames) : g.toNailList.toList = g.numbers.map nailOf := by
  simp [NailNames.toNailList, NailList.toList, NailList.entries, NailNames.numbers, Function.comp_def, Option.toList_map]

/-- A nail list given without repeats, by numbers that name nails and with at most four guards, is sound (R3, R11). -/
theorem NailNames.sound_toNailList {g : NailNames} (hle : ∀ w ∈ g.numbers, w.toNat ≤ 4095) (hnodup : g.numbers.Nodup)
    (hguards : g.guards.length ≤ 4) : g.toNailList.sound = true := by
  have hinj : ∀ a ∈ g.numbers, ∀ b ∈ g.numbers, nailOf a = nailOf b → a = b := fun a ha b hb hab => by
    have hval := congrArg Fin.val hab
    rw [nailOf_val (hle a ha), nailOf_val (hle b hb)] at hval
    exact BitVec.eq_of_toNat_eq hval
  simp only [NailList.sound, Bool.and_eq_true, decide_eq_true_eq, NailNames.toList_toNailList]
  exact ⟨List.Nodup.map_on hinj hnodup, by simpa [NailNames.toNailList] using hguards⟩

/-- Checks 2 and 3 of R11 as they are coded. -/
theorem nailNumberChecks_pass {g : NailNames} (h : ∀ c ∈ nailNumberChecks g, c.1 = false) :
    (∀ w ∈ g.numbers, w.toNat ≤ 4095) ∧ g.numbers.Nodup := by
  simpa [nailNumberChecks] using h

theorem State.writeChecks_sound {s : State} {body : List Byte} (h : firstFailing (s.writeChecks body (readWrite body)) = none) :
    (readWrite body).program.nails.sound = true := by
  rw [firstFailing_eq_none] at h
  have hlength : (readWrite body).guardCount ≤ 4 := by
    have := h (_, .badLength) (List.mem_append_left _ (List.mem_append_left _ (List.mem_append_left _
      (List.mem_append_left _ (List.mem_singleton.mpr rfl)))))
    simp only [Bool.or_eq_false_iff, decide_eq_false_iff_not] at this
    omega
  obtain ⟨hle, hnodup⟩ := nailNumberChecks_pass (g := (readWrite body).names) fun c hc =>
    h c (by simp [State.writeChecks, hc])
  exact NailNames.sound_toNailList hle hnodup (by simpa [readWrite, readNails] using hlength)

theorem State.editChecks_sound {s : State} {body : List Byte} {k : StepKind}
    (h : firstFailing (s.editChecks body (readEdit body) k) = none) {l : NailList} (hl : (readEdit body).edit.nails = some l) :
    l.sound = true := by
  rw [firstFailing_eq_none] at h
  have hnails : (readEdit body).hasNails = true := by
    by_contra hno
    simp [EditBody.edit, hno] at hl
  have hguards : (readEdit body).guardCount ≤ 4 := by
    have := h (_, .badLength) (List.mem_append_left _ (List.mem_append_left _ (List.mem_append_left _
      (List.mem_append_left _ (List.mem_singleton.mpr rfl)))))
    simp only [hnails, Bool.true_and, Bool.or_eq_false_iff, decide_eq_false_iff_not] at this
    omega
  obtain ⟨hle, hnodup⟩ := nailNumberChecks_pass (g := (readEdit body).names) fun c hc =>
    h c (by simp [State.editChecks, hnails, hc])
  have heq : (readEdit body).names.toNailList = l := by simpa [EditBody.edit, hnails] using hl
  exact heq ▸ NailNames.sound_toNailList hle hnodup (by simpa [readEdit, readNails] using hguards)

/-! ## Changes that no kept property reads -/

/-- The tables, the lanes, the link, the census, the run state and the mode are the same: all that the properties kept by
every step speak of. -/
structure SameCore (s t : State) : Prop where
  steps : t.steps = s.steps
  nails : t.nails = s.nails
  lanes : t.lanes = s.lanes
  link : t.link = s.link
  census : t.census = s.census
  state : t.run.state = s.run.state
  mode : t.run.summary.mode = s.run.summary.mode

theorem SameCore.refl (s : State) : SameCore s s := ⟨rfl, rfl, rfl, rfl, rfl, rfl, rfl⟩

/-- Only the request port's own state and the queue may differ. -/
def PortOnly (s t : State) : Prop :=
  ∃ port transfer shiftedOut pending,
    t = { s with port := port, transfer := transfer, shiftedOut := shiftedOut, pending := pending }

theorem PortOnly.refl (s : State) : PortOnly s s := ⟨s.port, s.transfer, s.shiftedOut, s.pending, rfl⟩

theorem PortOnly.sameCore {s t : State} (h : PortOnly s t) : SameCore s t := by
  obtain ⟨_, _, _, _, rfl⟩ := h
  exact ⟨rfl, rfl, rfl, rfl, rfl, rfl, rfl⟩

theorem PortOnly.takeAnswer (s : State) (q : Request) (a : Answer) : PortOnly s (s.takeAnswer q a) := by
  cases a <;> exact ⟨_, _, _, _, rfl⟩

theorem SameCore.endTransfer (s : State) (n : Nat) : SameCore s (s.endTransfer n) := ⟨rfl, rfl, rfl, rfl, rfl, rfl, rfl⟩

theorem SameCore.collect (n : Nat) (s : State) : SameCore s (collect n s) := by
  rw [collect_frame]
  exact ⟨rfl, rfl, rfl, rfl, rfl, rfl, rfl⟩

/-! ## Effects -/

/-- The effects of the commands on what the kept properties speak of. -/
inductive Effect : State → State → Prop where
  | same {s t} : SameCore s t → Effect s t
  /-- a dispatch opportunity reported at the end of an effect (R92) -/
  | report {s t} : Effect s t → Effect s t.reportOpportunity
  /-- the run's end tested at the end of an effect (R76, R83) -/
  | test {s t} : Effect s t → Effect s t.testRunEnd
  | store {s k p} : s.recordAt k = none → p.nails.sound = true → Effect s (s.storeStep k p)
  /-- a record's status changed, HELD or not as before -/
  | restatus {s k r st} : s.recordAt k = some r → StepStatus.isHeld st = r.status.isHeld →
      (r.status.editSound = true → st.editSound = true) → Effect s (s.setRecord k { r with status := st })
  | edit {s k r e} : s.recordAt k = some r → r.status.isHeld = false → (∀ l, e.nails = some l → l.sound = true) →
      Effect s (s.applyEdit k r e)
  | free {s k r} : s.recordAt k = some r → r.status.isHeld = false → Effect s (s.freeSlot k r)
  | retireNail {s n} : Effect s (s.retireNail n)
  | restoreNail {s n} : Effect s (s.restoreNail n)
  | markCommon {s n b} : Effect s (s.setNail n { s.nailAt n with common := b })
  | startCensus {s first others} : s.run.state.active = false → Effect s (s.startCensus first others)
  | startRun {s mode reverse weight} : s.run.state.active = false → s.census = none →
      Effect s (s.startRun mode reverse weight)
  | enterRunning {s} : s.run.state = .armed → Effect s s.enterRunning
  | abortArmed {s r} : s.run.state = .armed → Effect s (s.abortArmed r)
  | drain {s r} : s.run.state = .running → Effect s (s.drain r)
  | force {s} : s.run.state = .draining → Effect s s.force
  | forceRun {s r} : s.run.state = .running → Effect s (s.drain r).force
  | softReset {s} : Effect s s.softReset
  | hardReset {s} : Effect s s.hardReset
  | skip {s k v} : s.run.state = .running → Effect s (s.skip k v)
  | dispatch {s k l} : s.run.state = .running → s.examine true s.window = .dispatch k l → Effect s (s.dispatch k l)
  | sendStart {s l m aperture} : (s.laneAt l).timer = some (.settle m) → Effect s (s.sendStart l aperture)
  /-- a step ended with a verdict at a lane with a running timer or a START outstanding -/
  | verdict {s l w} : ((s.laneAt l).timer ≠ none ∨ (s.laneAt l).phase = .measuring) →
      Effect s (((s.clearOutstanding l).enterReleasing l w).arbitrate)
  | retry {s l r} : (s.laneAt l).phase = .measuring → Effect s ((s.clearOutstanding l).retryLane l r)
  | endRelease {s l m} : (s.laneAt l).timer = some (.releaseWait m) → Effect s (s.endRelease l)
  | laneOk {s l} : Effect s ((s.freeLink.laneCommandOk l).arbitrate)
  | censusOpened {s c} : Effect s ((s.freeLink.censusOpened c).arbitrate)
  | descriptorStored {s c v} : Effect s
      (({ s.freeLink.setCard c v with
          census := s.census.map (fun x => { x with stage := .openAll, request := .waiting }) } : State).arbitrate)
  | descriptorRefused {s c v} : Effect s (((s.freeLink.setCard c v).cardOffline c).censusNext.arbitrate)
  | censusTimeout {s c v} : Effect s ((s.freeLink.setCard c v).censusNext.arbitrate)
  | resend {s f sent} : Effect s { s with link := { s.link with inFlight := some f, sentCommand := sent } }
  | failure {s f timedOut} : s.link.inFlight = some f → Effect s (s.failInFlight f timedOut)

/-- An owner whose work on the part, whatever the body, is one effect. -/
def OwnerEffect (owner : List Byte → State → State × Answer) : Prop := ∀ body s, Effect s (owner body s).1

theorem Effect.refl (s : State) : Effect s s := .same (SameCore.refl s)

/-! ## The owners of the requests -/

theorem State.openRecord_eq_some {s : State} {w : BitVec 16} {k : Slot} {r : StepRecord} (h : s.openRecord w = some (k, r)) :
    s.recordAt k = some r ∧ r.status.retiring = false := by
  unfold State.openRecord at h
  split at h
  · cases h
  · rename_i k' r' hnamed
    split at h
    · cases h
    · rename_i hretiring
      obtain ⟨rfl, rfl⟩ : k' = k ∧ r' = r := by simpa using h
      refine ⟨?_, by simpa using hretiring⟩
      unfold State.namedRecord at hnamed
      split at hnamed
      · cases hnamed
      · obtain ⟨r'', hr, heq⟩ := Option.map_eq_some_iff.mp hnamed
        obtain ⟨rfl, rfl⟩ := Prod.mk.inj heq
        exact hr

theorem State.firstFree_free {s : State} {fuel k : Nat} {slot : Slot} (h : s.firstFree fuel k = some slot) :
    s.recordAt slot = none := by
  induction fuel generalizing k with
  | zero => cases h
  | succ fuel ih =>
    unfold State.firstFree at h
    split at h
    · cases h
    · split at h
      · rename_i hfree
        cases h
        exact Option.isNone_iff_eq_none.mp hfree
      · exact ih h

/-- The slot chosen for a STEP WRITE is FREE (R12). -/
theorem State.chooseSlot_free {s : State} {w : BitVec 16} {k : Slot} (h : s.chooseSlot w = .inr k) :
    s.recordAt k = none := by
  unfold State.chooseSlot at h
  split at h
  · split at h
    · cases h
    · rename_i hfirst
      cases h
      exact State.firstFree_free hfirst
  · split at h
    · cases h
    · split at h
      · cases h
      · rename_i hfree
        cases h
        simpa using hfree

theorem stepWriteOwner_effect : OwnerEffect stepWriteOwner := by
  intro body s
  unfold stepWriteOwner
  dsimp only
  split
  · exact .refl s
  · rename_i hchecks
    split
    · exact .refl s
    · rename_i hslot
      exact .store (State.chooseSlot_free hslot) (State.writeChecks_sound hchecks)

theorem State.editNow_effect {s : State} {k : Slot} {r : StepRecord} {e : StepEdit} (hr : s.recordAt k = some r)
    (hheld : r.status.isHeld = false) (hsound : ∀ l, e.nails = some l → l.sound = true) : Effect s (s.editNow k r e) := by
  unfold State.editNow
  dsimp only
  split
  · exact .test (.report (.edit hr hheld hsound))
  · exact .test (.edit hr hheld hsound)

theorem stepEditOwner_effect : OwnerEffect stepEditOwner := by
  intro body s
  unfold stepEditOwner
  dsimp only
  split
  · exact .refl s
  split
  · exact .refl s
  rename_i k r hopen
  obtain ⟨hr, -⟩ := State.openRecord_eq_some hopen
  split
  · exact .refl s
  rename_i hchecks
  have hsound : ∀ l, (readEdit body).edit.nails = some l → l.sound = true := fun l => State.editChecks_sound hchecks
  split
  · rename_i p d q hstatus
    refine .restatus hr (by rw [hstatus]; rfl) fun _ => ?_
    unfold StepStatus.editSound
    dsimp only
    split
    · rfl
    · rename_i l hl; exact hsound l hl
  · rename_i hstatus; exact State.editNow_effect hr (by rw [hstatus]; rfl) hsound
  · rename_i hstatus; exact State.editNow_effect hr (by rw [hstatus]; rfl) hsound

/-- Whether a HELD record's stored edit is sound does not depend on its pending park and retire pending. -/
theorem StepStatus.editSound_held {p p' q q' : Bool} {d : Option StepEdit} :
    (StepStatus.held p d q).editSound = true ↔ (StepStatus.held p' d q').editSound = true := by
  cases d <;> rfl

theorem stepParkOwner_effect : OwnerEffect stepParkOwner := by
  intro body s
  unfold stepParkOwner
  split
  · exact .refl s
  split
  · exact .refl s
  rename_i k r hopen
  obtain ⟨hr, -⟩ := State.openRecord_eq_some hopen
  split
  · rename_i hstatus; exact .restatus hr (by rw [hstatus]; rfl) (by rw [hstatus]; exact StepStatus.editSound_held.mp)
  · rename_i hstatus; exact .test (.restatus hr (by rw [hstatus]; rfl) (by rw [hstatus]; exact id))
  · rename_i hstatus; exact .restatus hr (by rw [hstatus]; rfl) (by rw [hstatus]; exact id)

theorem StepStatus.ofReasons_isHeld (p : ParkReasons) : (StepStatus.ofReasons p).isHeld = false := by
  unfold StepStatus.ofReasons; split <;> rfl

theorem StepStatus.ofReasons_editSound (p : ParkReasons) : (StepStatus.ofReasons p).editSound = true := by
  unfold StepStatus.ofReasons; split <;> rfl

theorem stepUnparkOwner_effect : OwnerEffect stepUnparkOwner := by
  intro body s
  unfold stepUnparkOwner
  split
  · exact .refl s
  split
  · exact .refl s
  rename_i k r hopen
  obtain ⟨hr, -⟩ := State.openRecord_eq_some hopen
  split
  · rename_i hstatus; exact .restatus hr (by rw [hstatus]; rfl) (by rw [hstatus]; exact StepStatus.editSound_held.mp)
  · exact .refl s
  · rename_i p hstatus
    split
    · have hunpark : Effect s (s.setRecord k { r with status := .ofReasons { p with requested := false } }) :=
        .restatus hr (by rw [hstatus, StepStatus.ofReasons_isHeld]; rfl) fun _ => StepStatus.ofReasons_editSound _
      dsimp only
      split
      · exact .report hunpark
      · exact hunpark
    · exact .refl s

theorem stepRetireOwner_effect : OwnerEffect stepRetireOwner := by
  intro body s
  unfold stepRetireOwner
  split
  · exact .refl s
  split
  · exact .refl s
  rename_i k r hopen
  obtain ⟨hr, -⟩ := State.openRecord_eq_some hopen
  split
  · rename_i hstatus; exact .restatus hr (by rw [hstatus]; rfl) fun _ => rfl
  · rename_i hstatus; exact .test (.free hr (by rw [hstatus]; rfl))
  · rename_i hstatus; exact .test (.free hr (by rw [hstatus]; rfl))

theorem nailRetireOwner_effect : OwnerEffect nailRetireOwner := by
  intro body s
  unfold nailRetireOwner
  split
  · exact .refl s
  split
  · exact .refl s
  split
  · exact .refl s
  · exact .retireNail

theorem nailRestoreOwner_effect : OwnerEffect nailRestoreOwner := by
  intro body s
  unfold nailRestoreOwner
  split
  · exact .refl s
  split
  · exact .refl s
  split
  · exact .refl s
  · exact .restoreNail

theorem State.setCommon_effect (s : State) (n : NailNo) : Effect s (s.setCommon n).1 := by
  unfold State.setCommon
  dsimp only
  split
  · exact .refl s
  split
  · exact .refl s
  split
  · exact .refl s
  split
  · exact .refl s
  · exact .markCommon

theorem State.clearCommon_effect (s : State) (n : NailNo) : Effect s (s.clearCommon n).1 := by
  unfold State.clearCommon
  dsimp only
  split
  · exact .refl s
  split
  · exact .refl s
  · exact .markCommon

theorem nailCommonOwner_effect : OwnerEffect nailCommonOwner := by
  intro body s
  unfold nailCommonOwner
  split
  · exact .refl s
  split
  · exact .refl s
  split
  · exact State.setCommon_effect s _
  · exact State.clearCommon_effect s _

theorem cardReadOwner_effect : OwnerEffect cardReadOwner := by
  intro body s
  unfold cardReadOwner
  split
  · exact .refl s
  split
  · exact .refl s
  · exact .same ⟨rfl, rfl, rfl, rfl, rfl, rfl, rfl⟩

/-- What the condition checks say when they pass. -/
theorem State.busyChecks_pass {s : State} {st : Status} (h : ∀ c ∈ s.busyChecks st, c.1 = false) :
    s.run.state.active = false ∧ s.census = none := by
  simpa [State.busyChecks] using h

theorem cardCensusOwner_effect : OwnerEffect cardCensusOwner := by
  intro body s
  unfold cardCensusOwner
  dsimp only
  split
  · exact .refl s
  rename_i hchecks
  rw [firstFailing_eq_none] at hchecks
  split
  · exact .refl s
  · exact .startCensus (State.busyChecks_pass fun c hc => hchecks c (List.mem_append_right _ hc)).1

theorem runStartOwner_effect : OwnerEffect runStartOwner := by
  intro body s
  unfold runStartOwner
  dsimp only
  split
  · exact .refl s
  rename_i hchecks
  rw [firstFailing_eq_none] at hchecks
  split
  · exact .refl s
  · obtain ⟨hactive, hcensus⟩ :=
      State.busyChecks_pass fun c hc => hchecks c (List.mem_append_left _ (List.mem_append_right _ hc))
    exact .startRun hactive hcensus

theorem State.abortDrain_effect (s : State) : Effect s s.abortDrain := by
  unfold State.abortDrain
  split
  · rename_i h; exact .abortArmed h
  · rename_i h; exact .test (.drain h)
  · exact .refl s

/-- A force of a DRAINING run writes its reason first, which no kept property reads. -/
theorem State.abortForce_effect (s : State) (r : AbortReason) :
    ∃ s', SameCore s s' ∧ Effect s' (s.abortForce r) := by
  unfold State.abortForce
  split
  · rename_i h; exact ⟨s, .refl s, .forceRun h⟩
  · rename_i h
    split
    · exact ⟨s.setAbortReason r, ⟨rfl, rfl, rfl, rfl, rfl, rfl, rfl⟩, .force h⟩
    · exact ⟨s, .refl s, .refl s⟩
  · exact ⟨s, .refl s, .refl s⟩

theorem runAbortOwner_effect (body : List Byte) (s : State) :
    ∃ s', SameCore s s' ∧ Effect s' (runAbortOwner body s).1 := by
  unfold runAbortOwner
  split
  · exact ⟨s, .refl s, .refl s⟩
  dsimp only
  split
  · split
    · rename_i h; exact ⟨s, .refl s, .abortArmed h⟩
    · exact State.abortForce_effect s _
  · exact ⟨s, .refl s, State.abortDrain_effect s⟩

theorem timebaseSetOwner_effect : OwnerEffect timebaseSetOwner := by
  intro body s
  unfold timebaseSetOwner
  split
  · exact .refl s
  · exact .same ⟨rfl, rfl, rfl, rfl, rfl, rfl, rfl⟩

theorem configSetOwner_effect : OwnerEffect configSetOwner := by
  intro body s
  unfold configSetOwner
  split
  · exact .refl s
  · exact .same ⟨rfl, rfl, rfl, rfl, rfl, rfl, rfl⟩

theorem statusOwner_effect : OwnerEffect statusOwner := by
  intro body s
  unfold statusOwner
  split
  · exact .refl s
  · exact .same ⟨rfl, rfl, rfl, rfl, rfl, rfl, rfl⟩

theorem enableSetOwner_effect : OwnerEffect enableSetOwner := by
  intro body s
  unfold enableSetOwner
  split
  · exact .refl s
  · exact .same ⟨rfl, rfl, rfl, rfl, rfl, rfl, rfl⟩

theorem softResetOwner_effect : OwnerEffect softResetOwner := by
  intro body s
  unfold softResetOwner
  split
  · exact .refl s
  · exact .softReset

/-- An owner that only reads. -/
def OwnerReads (owner : List Byte → State → State × Answer) : Prop := ∀ body s, (owner body s).1 = s

theorem OwnerReads.effect {owner : List Byte → State → State × Answer} (h : OwnerReads owner) : OwnerEffect owner :=
  fun body s => by rw [h body s]; exact .refl s

theorem stepReadOwner_reads : OwnerReads stepReadOwner := by
  intro body s
  unfold stepReadOwner
  split
  · rfl
  split <;> rfl

theorem stepScanOwner_reads : OwnerReads stepScanOwner := by
  intro body s
  unfold stepScanOwner
  split
  · rfl
  split <;> rfl

theorem nailReadOwner_reads : OwnerReads nailReadOwner := by
  intro body s
  unfold nailReadOwner
  split
  · rfl
  split <;> rfl

theorem nailLookupOwner_reads : OwnerReads nailLookupOwner := by
  intro body s
  unfold nailLookupOwner
  split
  · rfl
  split
  · rfl
  split <;> rfl

theorem runSummaryOwner_reads : OwnerReads runSummaryOwner := by
  intro body s
  unfold runSummaryOwner
  split <;> rfl

theorem configReadOwner_reads : OwnerReads configReadOwner := by
  intro body s
  unfold configReadOwner
  split <;> rfl

/-! ## The rows that are requests -/

/-- The owner of the catalogue for the row of a request. -/
theorem requestOf_owner {i : Instr} {code : Byte} {f : RequestFrame} (h : requestOf i = some (code, f)) :
    ∃ owner, ownerOf code = some owner ∧ ∀ s, exec i s = .next (takeRequest owner code f s) := by
  cases i <;> cases h <;> exact ⟨_, rfl, fun _ => rfl⟩

/-- The work of an owner of the catalogue is one effect. -/
theorem ownerOf_effect {code : Byte} {owner : List Byte → State → State × Answer} (h : ownerOf code = some owner)
    (body : List Byte) (s : State) : ∃ s', SameCore s s' ∧ Effect s' (owner body s).1 := by
  have of (he : OwnerEffect owner) : ∃ s', SameCore s s' ∧ Effect s' (owner body s).1 := ⟨s, .refl s, he body s⟩
  unfold ownerOf at h
  split at h <;> cases h
  · exact of stepWriteOwner_effect
  · exact of stepEditOwner_effect
  · exact of stepReadOwner_reads.effect
  · exact of stepParkOwner_effect
  · exact of stepUnparkOwner_effect
  · exact of stepRetireOwner_effect
  · exact of stepScanOwner_reads.effect
  · exact of nailReadOwner_reads.effect
  · exact of nailLookupOwner_reads.effect
  · exact of nailRetireOwner_effect
  · exact of nailRestoreOwner_effect
  · exact of nailCommonOwner_effect
  · exact of cardReadOwner_effect
  · exact of cardCensusOwner_effect
  · exact of runStartOwner_effect
  · exact runAbortOwner_effect body s
  · exact of runSummaryOwner_reads.effect
  · exact of timebaseSetOwner_effect
  · exact of configSetOwner_effect
  · exact of configReadOwner_reads.effect
  · exact of statusOwner_effect
  · exact of enableSetOwner_effect
  · exact of softResetOwner_effect

/-! ## Inversion of a step -/

/-- A state goes to another by an effect, with changes before and the port's move after it that no kept property reads. -/
def Moves (s t : State) : Prop := ∃ s' u, SameCore s s' ∧ Effect s' u ∧ PortOnly u t

theorem Moves.of_effect {s t : State} (h : Effect s t) : Moves s t := ⟨s, t, .refl s, h, .refl t⟩

theorem Moves.of_sameCore {s t : State} (h : SameCore s t) : Moves s t := .of_effect (.same h)

theorem Moves.after {s s' t : State} (hs : SameCore s s') (h : Effect s' t) : Moves s t := ⟨s', t, hs, h, .refl t⟩

theorem SameCore.trans {s t u : State} (h : SameCore s t) (g : SameCore t u) : SameCore s u :=
  ⟨g.steps.trans h.steps, g.nails.trans h.nails, g.lanes.trans h.lanes, g.link.trans h.link, g.census.trans h.census,
    g.state.trans h.state, g.mode.trans h.mode⟩

theorem handOver_moves {code : Byte} {owner : List Byte → State → State × Answer} (h : ownerOf code = some owner)
    (q : Request) {s s' : State} (hs : SameCore s s') : Moves s (handOver owner q s') := by
  obtain ⟨s'', hs', heffect⟩ := ownerOf_effect h q.body s'
  exact ⟨s'', _, hs.trans hs', heffect, PortOnly.takeAnswer _ _ _⟩

theorem takeRequest_moves {code : Byte} {owner : List Byte → State → State × Answer} (h : ownerOf code = some owner)
    (f : RequestFrame) (s : State) : Moves s (takeRequest owner code f s) := by
  unfold takeRequest
  dsimp only
  split
  · exact .of_sameCore ⟨rfl, rfl, rfl, rfl, rfl, rfl, rfl⟩
  split
  · exact .of_sameCore ⟨rfl, rfl, rfl, rfl, rfl, rfl, rfl⟩
  · exact handOver_moves h _ (SameCore.endTransfer s _)

theorem transferEnds_moves (bytes : List Byte) (s : State) : Moves s (transferEnds bytes s) := by
  unfold transferEnds
  split
  · exact .of_sameCore ⟨rfl, rfl, rfl, rfl, rfl, rfl, rfl⟩
  split
  · exact .of_sameCore (SameCore.collect _ s)
  dsimp only
  split
  · exact .of_sameCore ⟨rfl, rfl, rfl, rfl, rfl, rfl, rfl⟩
  unfold State.takeFrame
  dsimp only
  split
  · exact .of_sameCore ⟨rfl, rfl, rfl, rfl, rfl, rfl, rfl⟩
  split
  · exact .of_sameCore (SameCore.endTransfer s _)
  · rename_i howner
    exact handOver_moves howner _ (SameCore.endTransfer s _)

theorem State.scanVisit_portOnly (s : State) (q : Request) (f : ScanFilter) (k : Slot) (found : List Slot) :
    PortOnly s (s.scanVisit q f k found) := by
  unfold State.scanVisit
  extract_lets found'
  split
  · exact ⟨_, _, _, _, rfl⟩
  split <;> exact ⟨_, _, _, _, rfl⟩

theorem State.lookupVisit_portOnly (s : State) (q : Request) (n : NailNo) (k : Slot) (found : List (Slot × Role)) :
    PortOnly s (s.lookupVisit q n k found) := by
  unfold State.lookupVisit
  extract_lets found'
  split
  · exact ⟨_, _, _, _, rfl⟩
  split <;> exact ⟨_, _, _, _, rfl⟩

theorem State.fixtureChanged_moves {s s' : State} (hs : SameCore s s') (f : FixtureState) : Moves s (s'.fixtureChanged f) := by
  have hchanged : SameCore s { s' with run := { s'.run with fixture := f, filterTimer := none } } :=
    hs.trans ⟨rfl, rfl, rfl, rfl, rfl, rfl, rfl⟩
  unfold State.fixtureChanged
  dsimp only
  split
  · split
    · rename_i harmed; exact .after hchanged (.enterRunning harmed)
    · exact .of_sameCore hchanged
  · obtain ⟨s'', hs'', heffect⟩ := State.abortForce_effect
      { s' with run := { s'.run with fixture := .opened, filterTimer := none } } .fixtureOpen
    exact .after (hchanged.trans hs'') heffect

theorem State.rawChanged_moves (s : State) (high : Bool) : Moves s (s.rawChanged high) := by
  unfold State.rawChanged
  dsimp only
  split
  · exact .of_sameCore ⟨rfl, rfl, rfl, rfl, rfl, rfl, rfl⟩
  split
  · have hraw : SameCore s { s with run := { s.run with rawHigh := high } } := ⟨rfl, rfl, rfl, rfl, rfl, rfl, rfl⟩
    exact State.fixtureChanged_moves hraw _
  · exact .of_sameCore ⟨rfl, rfl, rfl, rfl, rfl, rfl, rfl⟩

theorem State.examinationStep_effect {s : State} (h : s.run.state = .running) : Effect s s.examinationStep := by
  unfold State.examinationStep
  split
  · exact .skip h
  · rename_i hd; exact .dispatch h hd
  · exact .same ⟨rfl, rfl, rfl, rfl, rfl, rfl, rfl⟩

theorem State.takeResult_effect {s : State} {l : LaneNo} (h : (s.laneAt l).phase = .measuring) (count : BitVec 24)
    (overrange fault : Bool) : Effect s (s.takeResult l count overrange fault) := by
  unfold State.takeResult
  dsimp only
  split
  · exact .same ⟨rfl, rfl, rfl, rfl, rfl, rfl, rfl⟩
  split
  · exact .retry h
  · exact .verdict (.inr h)

theorem State.acknowledged_effect (s : State) (c : CardNo) : Effect s (s.acknowledged c) := by
  unfold State.acknowledged
  split
  · exact .refl s
  split
  · dsimp only
    split
    · exact .laneOk
    · exact .censusOpened
  · exact .refl s

theorem State.described_effect (s : State) (c : CardNo) (cardType operate release check : Byte) :
    Effect s (s.described c cardType operate release check) := by
  unfold State.described
  split
  · exact .refl s
  split
  · dsimp only
    split
    · exact .descriptorStored
    · exact .descriptorRefused
  · exact .refl s

theorem State.parityAnswered_moves (s : State) (c : CardNo) : Moves s (s.parityAnswered c) := by
  have hseen (v : CardEntry) : SameCore s (s.setCard c v) := ⟨rfl, rfl, rfl, rfl, rfl, rfl, rfl⟩
  unfold State.parityAnswered
  split
  · exact .of_effect (.refl s)
  rename_i f hflight
  split
  · dsimp only
    split
    · exact .after (hseen _) (.failure hflight)
    · exact .after (hseen _) .resend
  · exact .of_effect (.refl s)

theorem State.takeAnswerOnLink_moves (s : State) (a : LinkAnswer) : Moves s (s.takeAnswerOnLink a) := by
  cases a with
  | damaged => exact .of_effect (.refl s)
  | acknowledgement c => exact .of_effect (State.acknowledged_effect s c)
  | descriptor c cardType operate release check => exact .of_effect (State.described_effect s c _ _ _ _)
  | parity c => exact State.parityAnswered_moves s c

theorem execStepScanVisit_moves {s t : State} (h : execStepScanVisit s = .next t) : Moves s t := by
  unfold execStepScanVisit at h
  split at h <;> cases h
  · exact .of_sameCore (State.scanVisit_portOnly ..).sameCore
  all_goals exact .of_effect (.refl s)

theorem execNailLookupVisit_moves {s t : State} (h : execNailLookupVisit s = .next t) : Moves s t := by
  unfold execNailLookupVisit at h
  split at h <;> cases h
  · exact .of_sameCore (State.lookupVisit_portOnly ..).sameCore
  all_goals exact .of_effect (.refl s)

theorem execFxcChange_moves {high : Bool} {s t : State} (h : execFxcChange high s = .next t) : Moves s t := by
  unfold execFxcChange at h
  split at h <;> cases h
  · exact .of_effect (.refl s)
  · exact State.rawChanged_moves s high

theorem execFxcFilterExpiry_moves {s t : State} (h : execFxcFilterExpiry s = .next t) : Moves s t := by
  unfold execFxcFilterExpiry at h
  split at h <;> cases h
  · exact .of_effect (.refl s)
  · exact State.fixtureChanged_moves (.refl s) _

theorem execRunElapsedTick_moves {s t : State} (h : execRunElapsedTick s = .next t) : Moves s t := by
  unfold execRunElapsedTick at h
  split at h <;> cases h
  · exact .of_sameCore ⟨rfl, rfl, rfl, rfl, rfl, rfl, rfl⟩
  · exact .of_effect (.refl s)

theorem execExaminationStep_moves {s t : State} (h : execExaminationStep s = .next t) : Moves s t := by
  unfold execExaminationStep at h
  split at h
  · cases h; exact .of_effect (.refl s)
  · split at h <;> cases h
    · rename_i hrunning; exact .of_effect (State.examinationStep_effect hrunning)
    · exact .of_sameCore ⟨rfl, rfl, rfl, rfl, rfl, rfl, rfl⟩

theorem execSettleExpiry_moves {l : LaneNo} {s t : State} (h : execSettleExpiry l s = .next t) : Moves s t := by
  unfold execSettleExpiry at h
  split at h <;> cases h
  · rename_i htimer; exact .of_effect (.sendStart htimer)
  · exact .of_effect (.refl s)

theorem execConverterTimeout_moves {l : LaneNo} {s t : State} (h : execConverterTimeout l s = .next t) :
    Moves s t := by
  unfold execConverterTimeout at h
  split at h <;> cases h
  · rename_i htimer; exact .of_effect (.verdict (.inl (by rw [htimer]; exact Option.some_ne_none _)))
  · exact .of_effect (.refl s)

theorem execReleaseWaitExpiry_moves {l : LaneNo} {s t : State} (h : execReleaseWaitExpiry l s = .next t) :
    Moves s t := by
  unfold execReleaseWaitExpiry at h
  split at h <;> cases h
  · rename_i htimer; exact .of_effect (.endRelease htimer)
  · exact .of_effect (.refl s)

theorem execAckTimeout_moves {s t : State} (h : execAckTimeout s = .next t) : Moves s t := by
  unfold execAckTimeout at h
  split at h
  · cases h; exact .of_effect (.refl s)
  · rename_i hflight
    split at h <;> cases h
    · exact .of_effect (.refl s)
    · exact .of_effect (.failure hflight)

theorem execCensusTimeout_moves {s t : State} (h : execCensusTimeout s = .next t) : Moves s t := by
  unfold execCensusTimeout at h
  split at h
  · cases h; exact .of_effect (.refl s)
  · split at h <;> cases h
    · exact .of_effect .censusTimeout
    · exact .of_effect (.refl s)

theorem execResult_moves {l : LaneNo} {number : Byte} {count : BitVec 24} {overrange fault : Bool} {s t : State}
    (h : execResult l number count overrange fault s = .next t) :
    Moves s t := by
  unfold execResult at h
  split at h <;> cases h
  · rename_i hwaited; exact .of_effect (State.takeResult_effect hwaited.1 count overrange fault)
  · exact .of_sameCore ⟨rfl, rfl, rfl, rfl, rfl, rfl, rfl⟩

theorem execTransferBegin_moves {s t : State} (h : execTransferBegin s = .next t) : Moves s t := by
  unfold execTransferBegin at h
  split at h <;> cases h
  · exact .of_effect (.refl s)
  · exact .of_sameCore ⟨rfl, rfl, rfl, rfl, rfl, rfl, rfl⟩

theorem request_moves {i : Instr} {code : Byte} {f : RequestFrame} (hi : requestOf i = some (code, f)) {s t : State}
    (h : exec i s = .next t) : Moves s t := by
  obtain ⟨owner, howner, hexec⟩ := requestOf_owner hi
  obtain rfl := Host.Outcome.next.inj ((hexec s).symm.trans h)
  exact takeRequest_moves howner f s

/-- What a command can do: it goes to the next state by one effect. -/
theorem exec_moves {i : Instr} {s t : State} (h : exec i s = .next t) : Moves s t := by
  cases i with
  | stepWrite f => exact request_moves rfl h
  | stepEdit f => exact request_moves rfl h
  | stepRead f => exact request_moves rfl h
  | stepPark f => exact request_moves rfl h
  | stepUnpark f => exact request_moves rfl h
  | stepRetire f => exact request_moves rfl h
  | stepScan f => exact request_moves rfl h
  | nailRead f => exact request_moves rfl h
  | nailLookup f => exact request_moves rfl h
  | nailRetire f => exact request_moves rfl h
  | nailRestore f => exact request_moves rfl h
  | nailCommonSet f => exact request_moves rfl h
  | nailCommonClear f => exact request_moves rfl h
  | cardRead f => exact request_moves rfl h
  | cardCensus f => exact request_moves rfl h
  | runStart f => exact request_moves rfl h
  | runAbortDrain f => exact request_moves rfl h
  | runAbortForce f => exact request_moves rfl h
  | runSummary f => exact request_moves rfl h
  | timebaseSet f => exact request_moves rfl h
  | configSet f => exact request_moves rfl h
  | configRead f => exact request_moves rfl h
  | status f => exact request_moves rfl h
  | enableSet f => exact request_moves rfl h
  | softReset f => exact request_moves rfl h
  | stepScanVisit => exact execStepScanVisit_moves h
  | nailLookupVisit => exact execNailLookupVisit_moves h
  | unknownRequestFrame bytes => cases h; exact transferEnds_moves bytes s
  | overrunFrame bytes => cases h; exact transferEnds_moves bytes s
  | replyCollection n => cases h; exact .of_sameCore (SameCore.collect n s)
  | emptyCollection n => cases h; exact .of_sameCore (SameCore.collect n s)
  | hardReset => cases h; exact .of_effect .hardReset
  | fxcChange _ => exact execFxcChange_moves h
  | fxcFilterExpiry => exact execFxcFilterExpiry_moves h
  | runElapsedTick => exact execRunElapsedTick_moves h
  | examinationStep => exact execExaminationStep_moves h
  | settleExpiry _ => exact execSettleExpiry_moves h
  | converterTimeout _ => exact execConverterTimeout_moves h
  | releaseWaitExpiry _ => exact execReleaseWaitExpiry_moves h
  | ackTimeout => exact execAckTimeout_moves h
  | censusTimeout => exact execCensusTimeout_moves h
  | acknowledgement c => cases h; exact .of_effect (State.acknowledged_effect s c)
  | descriptor c _ _ _ _ => cases h; exact .of_effect (State.described_effect s c _ _ _ _)
  | parity c => cases h; exact State.parityAnswered_moves s c
  | strayAnswer a => cases h; exact State.takeAnswerOnLink_moves s a
  | result _ _ _ _ _ => exact execResult_moves h
  | damagedResultFrame l => cases h; exact .of_effect (.refl s)
  | transferBegin => exact execTransferBegin_moves h
  | transferWithNoWholeByte => cases h; exact .of_sameCore ⟨rfl, rfl, rfl, rfl, rfl, rfl, rfl⟩

/-- What a step can do: it idles, or takes a command with its effect. -/
theorem step_moves {s t : State} (h : step s = .next t) : Moves s t := by
  unfold step at h
  split at h
  · cases h; exact .of_effect (.refl _)
  · rename_i c rest _
    have hrest : SameCore s { s with pending := rest } := ⟨rfl, rfl, rfl, rfl, rfl, rfl, rfl⟩
    obtain ⟨s', u, hs, heffect, hport⟩ := exec_moves h
    exact ⟨s', u, hrest.trans hs, heffect, hport⟩

/-- A property that reads the core alone and that every effect keeps is kept by every step. -/
theorem step_keeps {P : State → Prop} (hcore : ∀ s t, SameCore s t → P s → P t) (heffect : ∀ s t, Effect s t → P s → P t)
    {s t : State} (h : step s = .next t) (hs : P s) : P t := by
  obtain ⟨s', u, hpre, he, hport⟩ := step_moves h
  exact hcore u t hport.sameCore (heffect s' u he (hcore s s' hpre hs))

end Sys2Proof.Machine
end

section
/-! SUPPORT. What every effect does to the Step Table and the Nail Map: a property of the tables that a few changes of entries
keep is kept by every step; with it the canonical form. -/

namespace Sys2Proof.Machine

/-! ## Entries of a table that meet a test -/

section
variable {n : Nat} {α : Type}

theorem Table.countP_insert (k : Fin n) (v : α) (t : List (Fin n × α)) (p : α → Bool) :
    (Table.insert k v t).countP (fun e => p e.2) = t.countP (fun e => p e.2) + (p v).toNat := by
  induction t with
  | nil => cases h : p v <;> simp [Table.insert, h]
  | cons e t ih =>
    unfold Table.insert
    split
    · cases h : p v <;> simp [List.countP_cons, h]
    · rw [List.countP_cons, List.countP_cons, ih]; omega

theorem Table.countP_erase (d : α) {t : List (Fin n × α)} (ht : t.Pairwise (fun a b => a.1 < b.1)) (k : Fin n) (p : α → Bool)
    (hd : p d = false) :
    (Table.erase t k).countP (fun e => p e.2) + (p (Table.get d t k)).toNat = t.countP (fun e => p e.2) := by
  induction t with
  | nil => simp [Table.erase, hd]
  | cons e t ih =>
    obtain ⟨k', v⟩ := e
    obtain ⟨hlt, ht'⟩ := List.pairwise_cons.mp ht
    have ih := ih ht'
    by_cases hk : k' = k
    · subst hk
      have hout : ∀ e ∈ t, e.1 ≠ k' := fun e he heq => absurd (hlt e he) (by simp [heq])
      have herase : Table.erase ((k', v) :: t) k' = t := by
        simp only [Table.erase, List.filter_cons, decide_not, decide_true, Bool.not_true, Bool.false_eq_true, if_false]
        exact List.filter_eq_self.mpr fun e he => by simpa using hout e he
      rw [herase, Table.get_cons, if_pos rfl, List.countP_cons]
      cases p v <;> simp
    · have herase : Table.erase ((k', v) :: t) k = (k', v) :: Table.erase t k := by simp [Table.erase, hk]
      rw [herase, Table.get_cons, if_neg hk, List.countP_cons, List.countP_cons]
      omega

/-- A write changes the number of entries that meet a test by the entry written and the one it replaces. -/
theorem Table.countP_set [DecidableEq α] {d : α} {t : List (Fin n × α)} (ht : Table.wf d t = true) (k : Fin n) (v : α)
    {p : α → Bool} (hd : p d = false) :
    (Table.set d t k v).countP (fun e => p e.2) + (p (Table.get d t k)).toNat
      = t.countP (fun e => p e.2) + (p v).toNat := by
  have herase := Table.countP_erase d ((Table.wf_iff d t).mp ht).1 k p hd
  unfold Table.set
  split
  · rename_i hv; simp [hv, hd, herase]
  · rw [Table.countP_insert]; omega

/-- A change of all entries that no test result depends on keeps the number of those that meet it. -/
theorem Table.countP_mapAll [DecidableEq α] {d : α} (t : List (Fin n × α)) {f : α → α} {p : α → Bool} (hd : p d = false)
    (hf : ∀ v, p (f v) = p v) : (Table.mapAll d f t).countP (fun e => p e.2) = t.countP (fun e => p e.2) := by
  induction t with
  | nil => rfl
  | cons e t ih =>
    obtain ⟨k, v⟩ := e
    unfold Table.mapAll
    split
    · rename_i hv
      have hpv : p v = false := by rw [← hf, hv, hd]
      simp [hpv, ih]
    · simp [List.countP_cons, hf, ih]

end

/-! ## Properties of the tables -/

/-- The nails that a slot's record names and the soundness of its stored edit are as before. -/
structure SameNails (v u : StepSlot) : Prop where
  nails : u.record.map (fun r => r.program.nails) = v.record.map (fun r => r.program.nails)
  edits : (∀ r, v.record = some r → r.status.editSound = true) → ∀ r, u.record = some r → r.status.editSound = true

/-- A property of the tables and the run state that the changes of entries, and the test of the run's end, keep of which the
effects are made. -/
structure TableKept (P : State → Prop) : Prop where
  tables {s t : State} : t.steps = s.steps → t.nails = s.nails → t.run.state = s.run.state → P s → P t
  testRunEnd {s : State} : P s → P s.testRunEnd
  slot {s : State} {k : Slot} {v : StepSlot} : SameNails (s.slotAt k) v → P s → P (s.setSlot k v)
  nail {s : State} {n : NailNo} {e : NailEntry} : e.refCount = (s.nailAt n).refCount → P s → P (s.setNail n e)
  slots {s : State} {f : StepSlot → StepSlot} : f .blank = .blank → (∀ v, SameNails v (f v)) → P s →
    P { s with steps := Table.mapAll .blank f s.steps }
  entries {s : State} {f : NailEntry → NailEntry} : f .blank = .blank → (∀ e, (f e).refCount = e.refCount) → P s →
    P { s with nails := Table.mapAll .blank f s.nails }
  resolve {s : State} {k : Slot} : P s → P (s.resolve k)
  edit {s : State} {k : Slot} {r : StepRecord} {e : StepEdit} : s.recordAt k = some r → r.status.isHeld = false →
    (∀ l, e.nails = some l → l.sound = true) → P s → P (s.applyEdit k r e)
  free {s : State} {k : Slot} {r : StepRecord} : s.recordAt k = some r → P s → P (s.freeSlot k r)
  store {s : State} {k : Slot} {p : StepProgram} : s.recordAt k = none → p.nails.sound = true → P s → P (s.storeStep k p)

/-- A property of the tables alone. -/
structure TablesOnly (P : State → Prop) : Prop extends TableKept P where
  run {s t : State} : t.steps = s.steps → t.nails = s.nails → P s → P t
  empty {s : State} : s.steps = [] → s.nails = [] → P s

theorem SameNails.of_stats {v u : StepSlot} {r : StepRecord} {stats : StepStats} (hr : v.record = some r)
    (hu : u.record = some { r with stats := stats }) : SameNails v u := by
  constructor
  · rw [hr, hu]; rfl
  · intro h r' hr'; rw [hu] at hr'; cases hr'; exact h r hr

theorem SameNails.of_status {v u : StepSlot} {r : StepRecord} {st : StepStatus} (hr : v.record = some r)
    (hu : u.record = some { r with status := st }) (hst : r.status.editSound = true → st.editSound = true) :
    SameNails v u := by
  constructor
  · rw [hr, hu]; rfl
  · intro h r' hr'; rw [hu] at hr'; cases hr'; exact hst (h r hr)

theorem SameNails.refl (v : StepSlot) : SameNails v v := ⟨rfl, id⟩

namespace TableKept

variable {P : State → Prop} {s : State} {l : LaneNo}

theorem sameTables (hP : TableKept P) {s t : State} (h : P s) (hs : t.steps = s.steps := by rfl)
    (hn : t.nails = s.nails := by rfl) (hr : t.run.state = s.run.state := by rfl) : P t := hP.tables hs hn hr h

theorem setLane (hP : TableKept P) {v : Lane} (h : P s) : P (s.setLane l v) := hP.sameTables h

theorem report (hP : TableKept P) (h : P s) : P s.reportOpportunity :=
  hP.tables s.reportOpportunity_steps s.reportOpportunity_nails (by rw [State.reportOpportunity_run]) h

theorem contactVerdict (hP : TableKept P) {n : NailNo} {v : Verdict} (h : P s) : P (s.contactVerdict n v) := by
  have hset {e : NailEntry} (he : e.refCount = (s.nailAt n).refCount) : P (s.setNail n e) := hP.nail he h
  cases v <;> simp only [State.contactVerdict] <;> try exact h
  · split
    · exact hP.report (hset rfl)
    · exact hset rfl
  · split
    · exact hP.sameTables (hset (e := { s.nailAt n with
        contactFails := raiseSaturating (s.nailAt n).contactFails, state := NailState.suspect }) rfl)
    · exact hset rfl

theorem recordVerdict (hP : TableKept P) {k : Slot} {w : VerdictWrite} (h : P s) : P (s.recordVerdict k w) := by
  unfold State.recordVerdict
  split
  · exact h
  · rename_i r hr
    have hwritten : P (s.setSlot k
        { runMark := true
          record := some { r with stats := r.stats.afterVerdict s.run.summary.mode s.run.number w } }) :=
      hP.slot (.of_stats hr rfl) h
    dsimp only
    split
    · exact hP.sameTables (hP.contactVerdict hwritten)
    · exact hP.sameTables hwritten

theorem writeClamped (hP : TableKept P) {flag : Bool} (h : P s) : P (s.writeClamped l flag) := by
  unfold State.writeClamped
  split
  · exact h
  · rename_i k r hheld
    exact hP.slot (.of_stats ((State.heldBy_eq_some s l k r).mp hheld).2 rfl) h

theorem freeBindings (hP : TableKept P) (h : P s) : P (s.freeBindings l) :=
  hP.entries (by fin_cases l <;> rfl) (fun _ => rfl) h

/-! ## Lanes -/

theorem endRelease (hP : TableKept P) (h : P s) : P (s.endRelease l) := by
  unfold State.endRelease
  refine hP.testRunEnd (hP.report (hP.setLane ?_))
  split
  · exact hP.freeBindings h
  · exact hP.resolve (hP.freeBindings h)

theorem startReleaseWait (hP : TableKept P) (h : P s) : P (s.startReleaseWait l) := by
  rcases s.startReleaseWait_cases l with heq | ⟨_, _, _, heq⟩ <;> rw [heq]
  · exact hP.endRelease (hP.setLane h)
  · exact hP.setLane (hP.setLane h)

theorem openSequence (hP : TableKept P) (n : Nat) (h : P s) : P (State.openSequence l n s) := by
  rcases State.openSequence_cases l n s with heq | ⟨_, _, _, _, _, _, heq⟩ <;> rw [heq]
  · exact hP.startReleaseWait h
  · exact hP.setLane h

theorem enterReleasing (hP : TableKept P) {w : VerdictWrite} (h : P s) : P (s.enterReleasing l w) := by
  unfold State.enterReleasing
  refine hP.openSequence _ (hP.setLane ?_)
  split
  · exact h
  · exact hP.recordVerdict h

theorem clearOutstanding (hP : TableKept P) (h : P s) : P (s.clearOutstanding l) := hP.sameTables h

theorem endLaneWith (hP : TableKept P) {e : PendingEnd} (h : P s) : P (s.endLaneWith l e) := by
  unfold State.endLaneWith
  dsimp only
  split
  · exact h
  · split
    · split
      · exact h
      · exact hP.setLane h
    · exact hP.enterReleasing h
  · exact hP.enterReleasing h
  · exact hP.enterReleasing (hP.clearOutstanding h)
  · exact h

theorem sendStart (hP : TableKept P) {aperture : BitVec 16} (h : P s) : P (s.sendStart l aperture) := hP.sameTables h

theorem startSettle (hP : TableKept P) {aperture : BitVec 16} {settle : Nat × Bool} (h : P s) :
    P (s.startSettle l aperture settle) := by
  unfold State.startSettle
  dsimp only
  split
  · exact hP.sendStart (hP.setLane (hP.writeClamped h))
  · exact hP.setLane (hP.writeClamped h)

theorem openCompleted (hP : TableKept P) (h : P s) : P (s.openCompleted l) := hP.openSequence _ (hP.setLane h)

theorem closeCompleted (hP : TableKept P) (h : P s) : P (s.closeCompleted l) := by
  unfold State.closeCompleted
  dsimp only
  split
  · exact hP.enterReleasing (hP.setLane h)
  · split
    · exact hP.setLane h
    · split
      · exact hP.setLane (hP.setLane h)
      · exact hP.startSettle (hP.setLane h)

theorem laneCommandOk (hP : TableKept P) (h : P s) : P (s.laneCommandOk l) := by
  unfold State.laneCommandOk
  split
  · exact hP.closeCompleted h
  · exact hP.openCompleted h
  · exact hP.setLane h

theorem laneCommandFailed (hP : TableKept P) (h : P s) : P (s.laneCommandFailed l) := by
  unfold State.laneCommandFailed
  dsimp only
  split
  · exact hP.enterReleasing (hP.setLane h)
  · exact hP.openCompleted h
  · exact hP.setLane h

/-! ## The link and the census -/

theorem grantFrom (hP : TableKept P) (fuel : Nat) (last : Fin 5) (h : P s) : P (State.grantFrom fuel last s) := by
  induction fuel generalizing last s with
  | zero => exact h
  | succ fuel ih =>
    have hfailed (r : Fin 5) (m : LaneNo) :
        P (State.grantFrom fuel r (({ s with link := { s.link with lastGranted := r } } : State).laneCommandFailed m)) :=
      ih _ (hP.laneCommandFailed (hP.sameTables h))
    unfold State.grantFrom
    split
    · exact h
    split
    · exact h
    split
    · split
      · exact h
      · exact hP.sameTables h
    · split
      · split
        · exact hP.sameTables h
        · exact hfailed _ _
      · exact hfailed _ _

theorem arbitrate (hP : TableKept P) (h : P s) : P s.arbitrate := hP.grantFrom 5 _ h

theorem cardOffline (hP : TableKept P) {c : CardNo} (h : P s) : P (s.cardOffline c) := by
  unfold State.cardOffline
  refine List.foldlRecOn allLanes _ (hP.sameTables h) fun t ht m _ => ?_
  split
  · exact hP.endLaneWith ht
  · exact ht

theorem censusNext (hP : TableKept P) (h : P s) : P s.censusNext :=
  hP.tables (by rw [State.censusNext_frame]) (by rw [State.censusNext_frame]) (by rw [State.censusNext_frame]) h

theorem failInFlight (hP : TableKept P) {f : InFlight} {timedOut : Bool} (h : P s) : P (s.failInFlight f timedOut) := by
  unfold State.failInFlight State.commandFailed
  refine hP.arbitrate (hP.sameTables (s := State.commandFailed _ _) ?_)
  have hoffline : P (State.cardOffline (if timedOut then s.setCard f.command.card
      { s.cardAt f.command.card with timeoutSeen := true } else s) f.command.card) := by
    refine hP.cardOffline ?_
    split
    · exact hP.sameTables h
    · exact h
  unfold State.commandFailed
  split
  · exact hP.laneCommandFailed hoffline
  · exact hP.censusNext hoffline

theorem abandonAll (hP : TableKept P) (h : P s) : P s.abandonAll := by
  have hordered : P (allLanes.foldl (fun t l => t.endLaneWith l .aborted) s) :=
    List.foldlRecOn allLanes _ h fun t ht m _ => hP.endLaneWith ht
  unfold State.abandonAll
  dsimp only
  split
  · exact hP.grantFrom 5 _ (hP.sameTables hordered)
  · exact hP.arbitrate hordered

theorem startCensus (hP : TableKept P) {first : CardNo} {others : List CardNo} (h : P s) : P (s.startCensus first others) := by
  unfold State.startCensus
  refine hP.arbitrate (hP.sameTables (s := List.foldl _ s (first :: others)) ?_)
  exact List.foldlRecOn _ _ h fun t ht c _ => hP.sameTables ht

/-! ## Runs, dispatches and resets -/

theorem clearMarks (hP : TableKept P) (h : P s) : P s.clearMarks := hP.slots rfl (fun _ => ⟨rfl, id⟩) h

theorem bindNails (hP : TableKept P) {es : List (Role × NailNo)} (h : P s) : P (s.bindNails l es) :=
  List.foldlRecOn es _ h fun _ ht _ _ => hP.nail rfl ht

theorem dispatch (hP : TableKept P) {k : Slot} (h : P s) : P (s.dispatch k l) := by
  unfold State.dispatch
  split
  · exact h
  · rename_i r hr
    have hbound : P (s.bindNails l r.program.nails.entries) := hP.bindNails h
    have hr' : ((s.bindNails l r.program.nails.entries).slotAt k).record = some r := by
      rw [State.bindNails_frame]; exact hr
    have hheld := hP.slot (k := k) (v := { runMark := true, record := some { r with status := .held false none false } })
      (.of_status hr' rfl fun _ => rfl) hbound
    exact hP.arbitrate (hP.sameTables hheld)

theorem retireNail (hP : TableKept P) {n : NailNo} (h : P s) : P (s.retireNail n) := by
  have hparked := hP.slots (f := fun ss => if ss.gainsNail n then ss.withNailReason else ss) rfl (fun v => by
    split
    · cases hv : v.record with
      | none => exact ⟨by simp [StepSlot.withNailReason, hv], fun _ r hr => by simp [StepSlot.withNailReason, hv] at hr⟩
      | some r =>
        exact .of_status hv (by simp [StepSlot.withNailReason, hv]; rfl) fun _ => StepStatus.ofReasons_editSound _
    · exact .refl v) h
  exact hP.testRunEnd (hP.nail rfl hparked)

theorem restoreNail (hP : TableKept P) {n : NailNo} (h : P s) : P (s.restoreNail n) := by
  unfold State.restoreNail
  dsimp only
  refine hP.report ?_
  have hserved : P (s.serviceNail n) := hP.nail rfl h
  split
  · exact hP.slots (s := s.serviceNail n)
      (f := fun ss => if (s.serviceNail n).losesNail n ss then ss.withoutNailReason else ss) rfl (fun v => by
        split
        · cases hv : v.record with
          | none => exact ⟨by simp [StepSlot.withoutNailReason, hv], fun _ r hr => by simp [StepSlot.withoutNailReason, hv] at hr⟩
          | some r =>
            exact .of_status hv (by simp [StepSlot.withoutNailReason, hv]; rfl) fun _ => StepStatus.ofReasons_editSound _
        · exact .refl v) hserved
  · exact hserved

end TableKept

namespace TablesOnly

variable {P : State → Prop} {s : State} {l : LaneNo}

theorem ofTables (hP : TablesOnly P) {s t : State} (h : P s) (hs : t.steps = s.steps := by rfl)
    (hn : t.nails = s.nails := by rfl) : P t := hP.run hs hn h

theorem startRun (hP : TablesOnly P) {mode : RunMode} {reverse : Bool} {weight : Fin 4} (h : P s) :
    P (s.startRun mode reverse weight) := by
  unfold State.startRun State.enterRunning
  dsimp only
  split
  · exact hP.testRunEnd (hP.report (hP.ofTables (s := s.clearMarks) (hP.clearMarks h)))
  · exact hP.ofTables (s := s.clearMarks) (hP.clearMarks h)

theorem softReset (hP : TablesOnly P) (h : P s) : P s.softReset := by
  have hresolved : P s.resolveAll := List.foldlRecOn _ _ h fun t ht k _ => hP.resolve ht
  have hunbound := hP.entries (f := NailEntry.unbound) rfl (fun _ => rfl) (hP.clearMarks hresolved)
  exact hP.startCensus (hP.ofTables (t := s.softCleared) hunbound)

/-! ## Every effect, every step -/

theorem effect (hP : TablesOnly P) {t : State} (he : Effect s t) (h : P s) : P t := by
  induction he with
  | same hc => exact hP.run hc.steps hc.nails h
  | report _ ih => exact hP.report ih
  | test _ ih => exact hP.testRunEnd ih
  | store hfree hsound => exact hP.store hfree hsound h
  | restatus hr _ hedit => exact hP.slot (.of_status hr rfl hedit) h
  | edit hr hheld hsound => exact hP.edit hr hheld hsound h
  | free hr _ => exact hP.free hr h
  | retireNail => exact hP.retireNail h
  | restoreNail => exact hP.restoreNail h
  | markCommon => exact hP.nail rfl h
  | startCensus _ => exact hP.startCensus h
  | startRun _ _ => exact hP.startRun h
  | enterRunning _ => exact hP.testRunEnd (hP.report (hP.ofTables h))
  | abortArmed _ => exact hP.ofTables h
  | drain _ => exact hP.ofTables h
  | force _ => exact hP.testRunEnd (hP.abandonAll h)
  | forceRun _ => exact hP.testRunEnd (hP.abandonAll (hP.ofTables h))
  | softReset => exact hP.softReset h
  | hardReset => exact hP.empty rfl rfl
  | skip _ => exact hP.testRunEnd (hP.recordVerdict h)
  | dispatch _ _ => exact hP.dispatch h
  | sendStart _ => exact hP.sendStart h
  | verdict _ => exact hP.arbitrate (hP.enterReleasing (hP.clearOutstanding h))
  | retry _ => exact hP.startSettle (hP.sameTables h)
  | endRelease _ => exact hP.endRelease h
  | laneOk => exact hP.arbitrate (hP.laneCommandOk (hP.sameTables h))
  | censusOpened => exact hP.arbitrate (hP.censusNext (hP.report (hP.sameTables h)))
  | descriptorStored => exact hP.arbitrate (hP.sameTables h)
  | descriptorRefused => exact hP.arbitrate (hP.censusNext (hP.cardOffline (hP.sameTables h)))
  | censusTimeout => exact hP.arbitrate (hP.censusNext (hP.sameTables h))
  | resend => exact hP.sameTables h
  | failure _ => exact hP.failInFlight h

theorem step (hP : TablesOnly P) {t : State} (hstep : Machine.step s = .next t) (h : P s) : P t :=
  step_keeps (fun _ _ hc => hP.run hc.steps hc.nails) (fun _ _ he => hP.effect he) hstep h

end TablesOnly

/-! ## The canonical form (log 10) -/

theorem canonical_tablesOnly : TablesOnly (fun s => s.canonical = true) where
  tables hs hn _ h := (State.canonical_congr hs hn).trans h
  run hs hn h := (State.canonical_congr hs hn).trans h
  testRunEnd h := (State.canonical_testRunEnd _).trans h
  slot _ h := State.canonical_setSlot h _ _
  nail _ h := State.canonical_setNail h _ _
  slots _ _ h := by
    rw [State.canonical_iff] at h ⊢
    exact ⟨Table.wf_mapAll _ h.1, h.2⟩
  entries _ _ h := by
    rw [State.canonical_iff] at h ⊢
    exact ⟨h.1, Table.wf_mapAll _ h.2⟩
  resolve h := State.canonical_resolve h _
  edit _ _ _ h := by
    unfold State.applyEdit
    split
    · exact State.canonical_setRecord h _ _
    · exact State.canonical_setRecord (State.canonical_moveRefs h _ _) _ _
  free _ h := State.canonical_setSlot (State.canonical_lowerRefs _ h) _ _
  store _ _ h := by
    unfold State.storeStep
    dsimp only
    split
    · rw [State.canonical_reportOpportunity]; exact State.canonical_setRecord (State.canonical_raiseRefs _ h) _ _
    · exact State.canonical_setRecord (State.canonical_raiseRefs _ h) _ _
  empty hs hn := by rw [State.canonical_iff, hs, hn]; exact ⟨Table.wf_nil _, Table.wf_nil _⟩

/-- Settles O55: the canonical form is a property of the tables. -/
theorem everyStepKeepsTablesCanonical : Obligations.EveryStepKeepsTablesCanonical :=
  fun _ _ hcanonical hstep => canonical_tablesOnly.step hstep hcanonical

end Sys2Proof.Machine
end

section
/-! SUPPORT. Every step keeps the nail lists sound and the reference counts exact (R3, R31). -/

namespace Sys2Proof.Machine

/-- The record of a slot names a nail. -/
def StepSlot.names (n : NailNo) (ss : StepSlot) : Bool := (ss.record.map (fun r => r.program.nails.names n)).getD false

theorem State.refsOf_eq_countP (s : State) (n : NailNo) : s.refsOf n = s.steps.countP (fun e => e.2.names n) := by
  unfold State.refsOf
  rw [List.countP_eq_length_filter]
  congr 1
  refine List.filter_congr fun e _ => ?_
  unfold StepSlot.names
  cases e.2.record <;> rfl

theorem SameNails.names {v u : StepSlot} (h : SameNails v u) (n : NailNo) : u.names n = v.names n := by
  have hmap (x : StepSlot) : x.names n = ((x.record.map (fun r => r.program.nails)).map (fun l => l.names n)).getD false := by
    simp [StepSlot.names, Option.map_map, Function.comp_def]
  rw [hmap u, hmap v, h.nails]

/-- The nail list and the stored edit of a slot's record are sound (R3, R17). -/
def StepSlot.sound (ss : StepSlot) : Prop :=
  ∀ r, ss.record = some r → r.program.nails.sound = true ∧ r.status.editSound = true

theorem State.listsSound_iff {s : State} (h : s.canonical = true) : s.listsSound = true ↔ ∀ k, (s.slotAt k).sound := by
  have hlisted : s.listsSound = true ↔ ∀ e ∈ s.steps, e.2.sound := by
    unfold State.listsSound StepSlot.sound
    rw [List.all_eq_true]
    refine forall₂_congr fun e _ => ?_
    cases e.2.record <;> simp
  rw [hlisted]
  constructor
  · intro hall k r hr
    exact hall _ (State.listed_of_recordAt hr) r hr
  · intro hall e he
    have := hall e.1
    rwa [State.slotAt_of_listed h (v := e.2) he] at this

theorem SameNails.sound {v u : StepSlot} (h : SameNails v u) (hv : v.sound) : u.sound := by
  intro r hr
  refine ⟨?_, h.edits (fun r' hr' => (hv r' hr').2) r hr⟩
  have hnails := h.nails
  rw [hr] at hnails
  obtain ⟨r', hr', heq⟩ := Option.map_eq_some_iff.mp hnails.symm
  have heq : r'.program.nails = r.program.nails := heq
  rw [← heq]
  exact (hv r' hr').1

/-- The tables are canonical, every nail list is sound and every reference count exact. -/
structure RefsSound (s : State) : Prop where
  canonical : s.canonical = true
  lists : ∀ k, (s.slotAt k).sound
  refs : s.refsExact

theorem refsSound_iff (s : State) :
    RefsSound s ↔ s.canonical = true ∧ s.listsSound = true ∧ s.refsExact := by
  constructor
  · intro h
    exact ⟨h.canonical, (State.listsSound_iff h.canonical).mpr h.lists, h.refs⟩
  · rintro ⟨hc, hl, hr⟩
    exact ⟨hc, (State.listsSound_iff hc).mp hl, hr⟩

theorem StepRecord.edited_nails (r : StepRecord) (e : StepEdit) :
    (r.edited e).program.nails = e.nails.getD r.program.nails := rfl

namespace RefsSound

variable {s t : State} {k : Slot} {r : StepRecord}

theorem congr (h : RefsSound s) (hs : t.steps = s.steps) (hn : t.nails = s.nails) : RefsSound t :=
  ⟨(State.canonical_congr hs hn).trans h.canonical, fun k => by rw [State.slotAt_congr hs]; exact h.lists k,
    fun n => by rw [State.nailAt_congr hn, State.refsOf, hs]; exact h.refs n⟩

theorem wf_steps (h : RefsSound s) : Table.wf StepSlot.blank s.steps = true := ((State.canonical_iff s).mp h.canonical).1

theorem pairwise_steps (h : RefsSound s) : s.steps.Pairwise (fun a b => a.1 < b.1) := ((Table.wf_iff _ _).mp h.wf_steps).1

/-- A slot is written, and the number of records that name a nail follows what its record named before and names now. -/
theorem refsOf_set (h : RefsSound s) {v : StepSlot} (hsteps : t.steps = Table.set StepSlot.blank s.steps k v) (n : NailNo) :
    t.refsOf n + ((s.slotAt k).names n).toNat = s.refsOf n + (v.names n).toNat := by
  rw [State.refsOf_eq_countP, State.refsOf_eq_countP, hsteps]
  exact Table.countP_set h.wf_steps k v (p := StepSlot.names n) rfl

/-- A nail that a record names has its reference counted. -/
theorem named_le (h : RefsSound s) (k : Slot) (n : NailNo) : ((s.slotAt k).names n).toNat ≤ (s.nailAt n).refCount := by
  have hfree := h.refsOf_set (s.setSlot_steps k .blank) n
  have hblank : (StepSlot.blank.names n).toNat = 0 := rfl
  have hrefs := h.refs n
  omega

/-- A slot is written, and the counts follow the nails its record named before and names now. -/
theorem write (h : RefsSound s) {v : StepSlot} (hc : t.canonical = true)
    (hsteps : t.steps = Table.set StepSlot.blank s.steps k v) (hv : v.sound)
    (hcount : ∀ n, (t.nailAt n).refCount + ((s.slotAt k).names n).toNat = (s.nailAt n).refCount + (v.names n).toNat) :
    RefsSound t where
  canonical := hc
  lists j := by
    have hread : t.slotAt j = if j = k then v else s.slotAt j := by
      unfold State.slotAt; rw [hsteps, Table.get_set]
    rw [hread]
    split
    · exact hv
    · exact h.lists j
  refs n := by
    have hset := h.refsOf_set hsteps n
    have hrefs := h.refs n
    have := hcount n
    omega

theorem nodup (h : RefsSound s) (hr : s.recordAt k = some r) : r.program.nails.toList.Nodup := by
  have hsound := (h.lists k r hr).1
  simp only [NailList.sound, Bool.and_eq_true, decide_eq_true_eq] at hsound
  exact hsound.1

theorem names_eq (hr : s.recordAt k = some r) (n : NailNo) : (s.slotAt k).names n = r.program.nails.names n := by
  have hrecord : (s.slotAt k).record = some r := hr
  simp [StepSlot.names, hrecord]

/-- A record's nail list is replaced, the reference counts following it (R16). -/
theorem replace (h : RefsSound s) (hr : s.recordAt k = some r) {u : StepRecord} (hnails : u.program.nails.sound = true)
    (hedit : u.status.editSound = true) : RefsSound ((s.moveRefs r.program.nails u.program.nails).setRecord k u) := by
  have hnew : u.program.nails.toList.Nodup := by
    simp only [NailList.sound, Bool.and_eq_true, decide_eq_true_eq] at hnails; exact hnails.1
  refine h.write (k := k) (v := { runMark := (s.slotAt k).runMark, record := some u })
    (State.canonical_setRecord (State.canonical_moveRefs h.canonical _ _) _ _) ?_ ?_ fun n => ?_
  · rw [State.setRecord_steps, State.moveRefs_frame]; rfl
  · intro r' hr'; cases hr'; exact ⟨hnails, hedit⟩
  · have hle := h.named_le k n
    rw [State.nailAt_setRecord, State.nailAt_moveRefs _ _ _ (h.nodup hr) hnew]
    rw [names_eq hr] at hle ⊢
    have hv : StepSlot.names n { runMark := (s.slotAt k).runMark, record := some u } = u.program.nails.names n := rfl
    rw [hv]
    cases hb : r.program.nails.names n <;> cases ha : u.program.nails.names n <;> simp [hb] at hle ⊢
    omega

theorem free (h : RefsSound s) (hr : s.recordAt k = some r) : RefsSound (s.freeSlot k r) := by
  refine h.write (k := k) (v := { runMark := (s.slotAt k).runMark, record := none })
    (State.canonical_setSlot (State.canonical_lowerRefs _ h.canonical) _ _) ?_ ?_ fun n => ?_
  · unfold State.freeSlot; rw [State.setSlot_steps, State.lowerRefs_frame]
  · intro r' hr'; cases hr'
  · have hle := h.named_le k n
    unfold State.freeSlot
    rw [State.nailAt_setSlot, State.nailAt_lowerRefs]
    rw [names_eq hr] at hle ⊢
    have hv : StepSlot.names n { runMark := (s.slotAt k).runMark, record := none } = false := rfl
    rw [hv, NailList.count_toList _ (h.nodup hr)]
    cases hb : r.program.nails.names n <;> simp [hb] at hle ⊢
    omega

theorem store (h : RefsSound s) {p : StepProgram} (hfree : s.recordAt k = none) (hp : p.nails.sound = true) :
    RefsSound (s.storeStep k p) := by
  have hnodup : p.nails.toList.Nodup := by
    simp only [NailList.sound, Bool.and_eq_true, decide_eq_true_eq] at hp; exact hp.1
  have hrecord : (s.slotAt k).record = none := hfree
  have hstored (st : StepStatus) (hst : st.editSound = true) : RefsSound ((s.raiseRefs p.nails.toList).setRecord k
      { program := p, stats := StepStats.fresh, status := st }) := by
    refine h.write (k := k)
      (v := { runMark := (s.slotAt k).runMark, record := some { program := p, stats := StepStats.fresh, status := st } })
      (State.canonical_setRecord (State.canonical_raiseRefs _ h.canonical) _ _) ?_ ?_ fun n => ?_
    · rw [State.setRecord_steps, State.raiseRefs_frame]; rfl
    · intro r' hr'; cases hr'; exact ⟨hp, hst⟩
    · rw [State.nailAt_setRecord, State.nailAt_raiseRefs, NailList.count_toList _ hnodup]
      cases hb : p.nails.names n <;> simp [StepSlot.names, hrecord, hb]
  have hready := hstored _ (StepStatus.ofReasons_editSound { requested := false, nail := s.anyRetired p.nails })
  unfold State.storeStep
  dsimp only
  split
  · exact ⟨by rw [State.canonical_reportOpportunity]; exact hready.canonical, by simpa using hready.lists,
      fun n => by rw [State.nailAt_reportOpportunity, State.refsOf, State.reportOpportunity_steps]; exact hready.refs n⟩
  · exact hready

theorem resolve (h : RefsSound s) : RefsSound (s.resolve k) := by
  unfold State.resolve
  split
  · exact h
  rename_i r hr
  obtain ⟨hnails, hedit⟩ := h.lists k r hr
  split
  · exact h
  · exact h
  rename_i p d q hstatus
  split
  · exact h.free hr
  cases d with
  | none => exact h.replace hr (u := { r with status := .ofReasons _ }) hnails (StepStatus.ofReasons_editSound _)
  | some e =>
    refine h.replace hr (u := { r.edited e with status := .ofReasons _ }) ?_ (StepStatus.ofReasons_editSound _)
    rw [hstatus] at hedit
    rw [StepRecord.edited_nails]
    cases hl : e.nails with
    | none => exact hnails
    | some l => simpa [StepStatus.editSound, hl] using hedit

end RefsSound

theorem refsSound_tablesOnly : TablesOnly RefsSound where
  tables hs hn _ h := h.congr hs hn
  run hs hn h := h.congr hs hn
  testRunEnd h := h.congr (by rw [State.testRunEnd_frame]) (by rw [State.testRunEnd_frame])
  slot hsame h := h.write (State.canonical_setSlot h.canonical _ _) rfl (hsame.sound (h.lists _)) fun n => by
    rw [State.nailAt_setSlot, hsame.names n]
  nail hcount h :=
    ⟨State.canonical_setNail h.canonical _ _, h.lists, fun m => by
      rw [State.nailAt_setNail]
      split
      · rename_i heq; rw [hcount, ← heq]; exact h.refs m
      · exact h.refs m⟩
  slots hblank hsame h :=
    { canonical := canonical_tablesOnly.slots hblank hsame h.canonical
      lists := fun k => by
        unfold State.slotAt
        rw [Table.get_mapAll _ _ hblank _ h.pairwise_steps]
        exact (hsame _).sound (h.lists k)
      refs := fun n => by
        rw [State.refsOf_eq_countP, Table.countP_mapAll (p := StepSlot.names n) _ rfl fun v => (hsame v).names n]
        exact (h.refs n).trans (State.refsOf_eq_countP _ n) }
  entries hblank hcount h :=
    { canonical := canonical_tablesOnly.entries hblank hcount h.canonical
      lists := h.lists
      refs := fun n => by
        unfold State.nailAt
        rw [Table.get_mapAll _ _ hblank _ ((Table.wf_iff _ _).mp ((State.canonical_iff _).mp h.canonical).2).1, hcount]
        exact h.refs n }
  resolve h := h.resolve
  edit {s k r e} hr hheld hsound h := by
    unfold State.applyEdit
    split
    · rename_i hnone
      refine h.write (State.canonical_setRecord h.canonical _ _) (State.setRecord_steps ..) ?_ fun n => ?_
      · intro r' hr'
        cases hr'
        rw [StepRecord.edited_nails, hnone]
        exact h.lists k r hr
      · rw [RefsSound.names_eq hr]
        simp [StepSlot.names, StepRecord.edited_nails, hnone]
    · rename_i l hl
      have hreplaced := h.replace hr (u := { r.edited e with
        status := .ofReasons { r.status.reasons with nail := s.anyRetired l } })
        (by rw [StepRecord.edited_nails, hl]; exact hsound l hl) (StepStatus.ofReasons_editSound _)
      rwa [StepRecord.edited_nails, hl] at hreplaced
  free hr h := h.free hr
  store hfree hsound h := h.store hfree hsound
  empty {s} hs hn :=
    { canonical := canonical_tablesOnly.empty hs hn
      lists := fun k r hr => by rw [State.slotAt, hs] at hr; cases hr
      refs := fun n => by rw [State.nailAt, State.refsOf, hn, hs]; rfl }

/-- Settles O58: sound lists and exact counts are, on canonical tables, one property of the tables. -/
theorem everyStepKeepsReferenceCounts : Obligations.EveryStepKeepsReferenceCounts := by
  intro s t hcanonical hlists hrefs hstep
  have hsound : RefsSound t := refsSound_tablesOnly.step hstep ((refsSound_iff s).mpr ⟨hcanonical, hlists, hrefs⟩)
  exact ((refsSound_iff t).mp hsound).2

end Sys2Proof.Machine
end

section
/-! SUPPORT. What an event can do to a lane and to what it holds: it works on a busy lane's step, or ends it. A property of
lanes, HELD records and bindings that both keep is kept by every operation of the lanes and of the link. -/

namespace Sys2Proof.Machine

/-! ## Work on a lane's step -/

/-- A slot's record is HELD. -/
def State.heldAt (s : State) (k : Slot) : Bool := ((s.recordAt k).map (fun r => r.status.isHeld)).getD false

theorem State.heldAt_iff (s : State) (k : Slot) : s.heldAt k = true ↔ ∃ r, s.recordAt k = some r ∧ r.status.isHeld = true := by
  unfold State.heldAt
  cases s.recordAt k <;> simp

/-- A lane's pending end is one that R125 allows, and it runs no timer in CLOSING (R108). -/
def Lane.endSound (v : Lane) : Prop :=
  (v.phase = .closing → v.timer = none) ∧ (v.pendingEnd ≠ none → v.phase = .closing ∧ v.linkRequest = .inFlight)

theorem Lane.endSound_blank : Lane.blank.endSound := ⟨by simp [Lane.blank], by simp [Lane.blank]⟩

theorem Lane.endSound_of_none {v : Lane} (hp : v.phase ≠ .closing) (hn : v.pendingEnd = none) : v.endSound :=
  ⟨fun h => absurd h hp, fun h => absurd hn h⟩

theorem Lane.endSound.none {v : Lane} (h : v.endSound) (hp : v.phase ≠ .closing) : v.pendingEnd = none := by
  by_contra hne
  exact hp (h.2 hne).1

@[simp] theorem State.laneAt_clearOutstanding (s : State) (l m : LaneNo) : (s.clearOutstanding l).laneAt m = s.laneAt m := rfl

theorem LaneFrame.setRetries (l : LaneNo) (s : State) (n : Nat) :
    LaneFrame l s (s.setSummary { s.run.summary with retries := n }) :=
  ⟨fun _ _ => rfl, fun _ _ => rfl, rfl, rfl, rfl, ⟨rfl, rfl, rfl, rfl, rfl⟩, ⟨rfl, rfl, rfl⟩, rfl, rfl, rfl, rfl, rfl,
    fun _ h => h⟩

theorem LaneFrame.retryLane (l : LaneNo) (s : State) (r : StepRecord) : LaneFrame l s (s.retryLane l r) := by
  unfold State.retryLane
  dsimp only
  exact (LaneFrame.setLane l s _).trans ((LaneFrame.setRetries l _ _).trans (LaneFrame.startSettle l _ _ _))

/-- A lane's event has left the slot it holds, each record's program and status, the bindings and the run state. -/
structure Touched (l : LaneNo) (s t : State) : Prop where
  frame : LaneFrame l s t
  slot : (t.laneAt l).heldSlot = (s.laneAt l).heldSlot
  records : ∀ k, (t.recordAt k).map (fun r => (r.program, r.status)) = (s.recordAt k).map (fun r => (r.program, r.status))
  bindings : ∀ n, (t.nailAt n).bindings = (s.nailAt n).bindings
  state : t.run.state = s.run.state
  canonical : s.canonical = true → t.canonical = true

namespace Touched

variable {l : LaneNo} {s t u : State}

theorem refl (l : LaneNo) (s : State) : Touched l s s :=
  ⟨LaneFrame.refl l s, rfl, fun _ => rfl, fun _ => rfl, rfl, id⟩

theorem trans (h : Touched l s t) (g : Touched l t u) : Touched l s u :=
  ⟨h.frame.trans g.frame, g.slot.trans h.slot, fun k => (g.records k).trans (h.records k),
    fun n => (g.bindings n).trans (h.bindings n), g.state.trans h.state, fun hc => g.canonical (h.canonical hc)⟩

theorem setLane (s : State) {v : Lane} (hv : v.heldSlot = (s.laneAt l).heldSlot) : Touched l s (s.setLane l v) :=
  ⟨LaneFrame.setLane l s v, by rw [State.laneAt_setLane_self, hv], fun _ => rfl, fun _ => rfl, rfl,
    fun h => (State.canonical_setLane s l v).trans h⟩

theorem clearOutstanding (l : LaneNo) (s : State) : Touched l s (s.clearOutstanding l) :=
  ⟨LaneFrame.clearOutstanding l s, rfl, fun _ => rfl, fun _ => rfl, rfl, fun h => (State.canonical_setPort s l _).trans h⟩

theorem recordVerdict (l : LaneNo) (s : State) (k : Slot) (w : VerdictWrite) : Touched l s (s.recordVerdict k w) where
  frame := LaneFrame.recordVerdict l s k w
  slot := by rw [State.laneAt_congr (s := s) (by rw [State.recordVerdict_frame])]
  records j := by
    cases hr : s.recordAt k with
    | none => rw [State.recordVerdict_of_free w hr]
    | some r =>
      rw [State.recordAt_recordVerdict w hr]
      split
      · rename_i h; rw [h, hr]; rfl
      · rfl
  bindings n := by
    cases hr : s.recordAt k with
    | none => rw [State.recordVerdict_of_free w hr]
    | some r =>
      rw [State.nailAt_recordVerdict w hr]
      split
      · cases w.verdict <;> rfl
      · rfl
  state := by rcases State.recordVerdict_run_kept s k w with h | h <;> rw [h]; rfl
  canonical h := State.canonical_recordVerdict h k w

theorem writeClamped (l : LaneNo) (s : State) (flag : Bool) : Touched l s (s.writeClamped l flag) where
  frame := LaneFrame.writeClamped l s flag
  slot := by unfold State.writeClamped; split <;> rfl
  records j := by
    unfold State.writeClamped
    split
    · rfl
    · rename_i k r hheld
      rw [State.recordAt_setRecord]
      split
      · rename_i h; rw [h, ((State.heldBy_eq_some s l k r).mp hheld).2]; rfl
      · rfl
  bindings n := by unfold State.writeClamped; split <;> rfl
  state := by unfold State.writeClamped; split <;> rfl
  canonical h := State.canonical_writeClamped h l flag

theorem sendStart (s : State) (aperture : BitVec 16) : Touched l s (s.sendStart l aperture) :=
  ⟨LaneFrame.sendStart l s aperture, by unfold State.sendStart; dsimp only; rw [State.laneAt_setLane_self], fun _ => rfl,
    fun _ => rfl, rfl, fun h => (State.canonical_congr rfl rfl).trans h⟩

theorem heldAt (h : Touched l s t) (k : Slot) : t.heldAt k = s.heldAt k := by
  have hmap (r : Option StepRecord) :
      r.map (fun r => r.status.isHeld) = (r.map (fun r => (r.program, r.status))).map (fun x => x.2.isHeld) := by
    cases r <;> rfl
  unfold State.heldAt
  rw [hmap, h.records k, ← hmap]

theorem other (h : Touched l s t) {m : LaneNo} (hm : m ≠ l) : t.laneAt m = s.laneAt m := h.frame.lanes m hm

end Touched

/-- A lane is busy after an event that has touched it, and its pending end is sound when it was before. -/
structure Tuned (l : LaneNo) (s t : State) : Prop where
  touched : Touched l s t
  busy : (t.laneAt l).phase ≠ .idle
  endSound : (s.laneAt l).endSound → (t.laneAt l).endSound

/-- What an event can do at a busy lane: it works on the lane's step, or works on it and then ends it. -/
inductive LaneWork (l : LaneNo) (s : State) : State → Prop where
  | tuned {t} : Tuned l s t → LaneWork l s t
  | ended {u t} : Touched l s u → (u.laneAt l).phase ≠ .idle → t = u.endRelease l → LaneWork l s t

namespace LaneWork

variable {l : LaneNo} {s t u : State}

theorem after (h : Touched l s u) (hsound : (s.laneAt l).endSound → (u.laneAt l).endSound) (g : LaneWork l u t) :
    LaneWork l s t := by
  cases g with
  | tuned g => exact .tuned ⟨h.trans g.touched, g.busy, fun hs => g.endSound (hsound hs)⟩
  | ended g hbusy heq => exact .ended (h.trans g) hbusy heq

theorem setLane {v : Lane} (hv : v.heldSlot = (s.laneAt l).heldSlot) (hbusy : v.phase ≠ .idle)
    (hsound : (s.laneAt l).endSound → v.endSound) : LaneWork l s (s.setLane l v) :=
  .tuned ⟨Touched.setLane s hv, by rwa [State.laneAt_setLane_self], by rwa [State.laneAt_setLane_self]⟩

theorem startReleaseWait (h : (s.laneAt l).phase = .releasing) : LaneWork l s (s.startReleaseWait l) := by
  have hopened := Touched.setLane (l := l) s (v := { s.laneAt l with openPosition := 0 }) rfl
  rcases s.startReleaseWait_cases l with heq | ⟨wait, -, -, heq⟩ <;> rw [heq]
  · exact .ended hopened (by rw [State.laneAt_setLane_self]; simp [h]) rfl
  · refine .tuned ⟨hopened.trans (Touched.setLane _ (by rw [State.laneAt_setLane_self])), ?_, fun hsound => ?_⟩ <;>
      rw [State.laneAt_setLane_self]
    · simp [h]
    · exact Lane.endSound_of_none (by simp [h]) (hsound.none (by simp [h]))

theorem openSequence (n : Nat) (h : (s.laneAt l).phase = .releasing) : LaneWork l s (State.openSequence l n s) := by
  rcases State.openSequence_cases l n s with heq | ⟨m, _, _, _, _, _, heq⟩ <;> rw [heq]
  · exact startReleaseWait h
  · exact setLane rfl (by simp [h]) fun hsound => Lane.endSound_of_none (by simp [h]) (hsound.none (by simp [h]))

/-- Whatever an event has done to the lane before, the entry to RELEASING leaves no pending end. -/
theorem enterReleasing (h : Touched l s u) (w : VerdictWrite) : LaneWork l s (u.enterReleasing l w) := by
  unfold State.enterReleasing
  dsimp only
  have hrecorded : Touched l u (match (u.laneAt l).heldSlot with
      | none => u
      | some k => u.recordVerdict k w) := by
    split
    · exact Touched.refl l u
    · exact Touched.recordVerdict l u _ w
  have hentered := hrecorded.trans (Touched.setLane _ (v := { u.laneAt l with
    phase := .releasing, releaseSet := u.namedReleaseSet l, openPosition := (u.laneAt l).closedCount, pendingEnd := none,
    linkRequest := .none, timer := none }) hrecorded.slot.symm)
  refine after (h.trans hentered) (fun _ => ?_) (openSequence _ ?_) <;> rw [State.laneAt_setLane_self]
  exact Lane.endSound_of_none (by simp) rfl

theorem endLaneWith (e : PendingEnd) (h : (s.laneAt l).phase ≠ .idle) : LaneWork l s (s.endLaneWith l e) := by
  have hsame : LaneWork l s s := .tuned ⟨Touched.refl l s, h, id⟩
  unfold State.endLaneWith
  dsimp only
  split
  · exact hsame
  · rename_i hclosing
    split
    · rename_i hflight
      split
      · exact hsame
      · exact setLane rfl (by simp [hclosing]) fun hsound => ⟨hsound.1, fun _ => ⟨hclosing, hflight⟩⟩
    · exact enterReleasing (Touched.refl l s) _
  · exact enterReleasing (Touched.refl l s) _
  · exact enterReleasing (Touched.clearOutstanding l s) _
  · exact hsame

theorem sendStart (s : State) (aperture : BitVec 16) (h : (s.laneAt l).endSound → (s.laneAt l).pendingEnd = none) :
    LaneWork l s (s.sendStart l aperture) := by
  refine .tuned ⟨Touched.sendStart s aperture, ?_, fun hsound => ?_⟩ <;> unfold State.sendStart <;> dsimp only <;>
    rw [State.laneAt_setLane_self]
  · simp
  · exact Lane.endSound_of_none (by simp) (h hsound)

theorem startSettle (s : State) (aperture : BitVec 16) (settle : Nat × Bool)
    (h : (s.laneAt l).endSound → (s.laneAt l).pendingEnd = none) : LaneWork l s (s.startSettle l aperture settle) := by
  have hflagged := Touched.writeClamped l s settle.2
  have hnone (hs : (s.laneAt l).endSound) : ((s.writeClamped l settle.2).laneAt l).pendingEnd = none := by
    have hlane : (s.writeClamped l settle.2).laneAt l = s.laneAt l := by unfold State.writeClamped; split <;> rfl
    rw [hlane]; exact h hs
  have hset (timer : Option LaneTimer) := hflagged.trans (Touched.setLane (l := l) (s.writeClamped l settle.2)
    (v := { (s.writeClamped l settle.2).laneAt l with phase := .settling, timer := timer }) rfl)
  unfold State.startSettle
  dsimp only
  split
  · refine after (hset none) (fun hs => ?_) (sendStart _ aperture fun hs => ?_) <;> rw [State.laneAt_setLane_self] at *
    · exact Lane.endSound_of_none (by simp) (hnone hs)
    · exact hs.none (by simp)
  · refine .tuned ⟨hset _, ?_, fun hs => ?_⟩ <;> rw [State.laneAt_setLane_self]
    · simp
    · exact Lane.endSound_of_none (by simp) (hnone hs)

theorem closeCompleted (h : (s.laneAt l).phase = .closing) : LaneWork l s (s.closeCompleted l) := by
  have hraised := Touched.setLane (l := l) s (v := { s.laneAt l with
    linkRequest := LinkRequest.none, closedCount := (s.laneAt l).closedCount + 1 }) rfl
  unfold State.closeCompleted
  dsimp only
  split
  · exact enterReleasing hraised _
  · rename_i hnone
    have hsound (v : Lane) (hn : v.pendingEnd = none) (ht : v.timer = (s.laneAt l).timer) :
        (s.laneAt l).endSound → v.endSound := fun hs => ⟨fun _ => ht.trans (hs.1 h), fun hne => absurd hn hne⟩
    split
    · exact setLane rfl (by simp [h]) (hsound _ hnone rfl)
    split
    · refine after hraised ?_ (setLane ?_ (by simp [h]) ?_) <;> rw [State.laneAt_setLane_self]
      · exact hsound _ hnone rfl
      · exact fun hs => ⟨hs.1, fun hne => absurd hnone hne⟩
    · refine after hraised ?_ (startSettle _ _ _ fun _ => ?_) <;> rw [State.laneAt_setLane_self]
      · exact hsound _ hnone rfl
      · exact hnone

theorem openCompleted (h : (s.laneAt l).phase = .releasing) : LaneWork l s (s.openCompleted l) := by
  unfold State.openCompleted
  refine after (Touched.setLane s (by rfl)) (fun hs => ?_) (openSequence _ ?_) <;> rw [State.laneAt_setLane_self]
  · exact Lane.endSound_of_none (by simp [h]) (hs.none (by simp [h]))
  · exact h

/-- A lane that is neither CLOSING nor RELEASING loses its link request. -/
theorem setRequest (hidle : (s.laneAt l).phase ≠ .idle) (hclosing : (s.laneAt l).phase ≠ .closing) :
    LaneWork l s (s.setLane l { s.laneAt l with linkRequest := .none }) :=
  setLane rfl hidle fun hs => Lane.endSound_of_none hclosing (hs.none hclosing)

theorem laneCommandOk (h : (s.laneAt l).phase ≠ .idle) : LaneWork l s (s.laneCommandOk l) := by
  unfold State.laneCommandOk
  split
  · rename_i hp; exact closeCompleted hp
  · rename_i hp; exact openCompleted hp
  · rename_i hp _; exact setRequest h hp

theorem laneCommandFailed (h : (s.laneAt l).phase ≠ .idle) : LaneWork l s (s.laneCommandFailed l) := by
  unfold State.laneCommandFailed
  dsimp only
  split
  · exact enterReleasing (Touched.setLane s (by rfl)) _
  · rename_i hp; exact openCompleted hp
  · rename_i hp _; exact setRequest h hp

theorem retryLane (s : State) (r : StepRecord) (h : (s.laneAt l).phase = .measuring) :
    LaneWork l s ((s.clearOutstanding l).retryLane l r) := by
  have hraised (v : Lane) (hv : v.heldSlot = (s.laneAt l).heldSlot) (n : Nat) : Touched l s
      (((s.clearOutstanding l).setLane l v).setSummary { s.run.summary with retries := n }) :=
    ((Touched.clearOutstanding l s).trans (Touched.setLane _ hv)).trans
      { frame := LaneFrame.setRetries l _ n
        slot := rfl, records := fun _ => rfl, bindings := fun _ => rfl, state := rfl
        canonical := fun h => (State.canonical_setSummary _ _).trans h }
  unfold State.retryLane
  dsimp only
  refine after (hraised _ (by rfl) _) (fun hs => ?_) (startSettle _ _ _ fun hs => ?_) <;>
    rw [State.laneAt_setSummary, State.laneAt_setLane_self] at *
  · exact Lane.endSound_of_none (by simp [h]) (hs.none (by simp [h]))
  · exact hs.none (by simp [h])

end LaneWork

end Sys2Proof.Machine
end

section
/-! SUPPORT. A property of lanes, HELD records and bindings that the work at the lanes keeps is kept by the operations of the
link and of the runs. -/

namespace Sys2Proof.Machine

/-! ## Properties of lanes and what they hold -/

/-- The lanes, which records are HELD, and the bindings are the same, and a run state without busy lanes is not entered while
a lane is busy. -/
structure SameHolds (s t : State) : Prop where
  lanes : t.lanes = s.lanes
  held : ∀ k, t.heldAt k = s.heldAt k
  bindings : ∀ n, (t.nailAt n).bindings = (s.nailAt n).bindings
  canonical : s.canonical = true → t.canonical = true
  quiet : t.run.state = s.run.state ∨ t.run.state = .running ∨ t.run.state = .draining
    ∨ (s.run.state ≠ .running ∧ s.run.state ≠ .draining) ∨ ∀ l, (s.laneAt l).phase = .idle

theorem State.heldAt_congr {s t : State} (h : t.steps = s.steps) (k : Slot) : t.heldAt k = s.heldAt k := by
  unfold State.heldAt; rw [State.recordAt_congr h]

theorem SameHolds.of_tables {s t : State} (hl : t.lanes = s.lanes := by rfl) (hs : t.steps = s.steps := by rfl)
    (hn : t.nails = s.nails := by rfl) (hr : t.run.state = s.run.state := by rfl) : SameHolds s t :=
  ⟨hl, fun k => State.heldAt_congr hs k, fun n => by rw [State.nailAt_congr hn],
    fun h => (State.canonical_congr hs hn).trans h, .inl hr⟩

/-- The test of the run's end closes a run only when every lane is IDLE. -/
theorem State.testRunEnd_state (s : State) : s.testRunEnd.run.state = s.run.state ∨ s.allLanesIdle = true := by
  unfold State.testRunEnd
  split
  · rename_i h; exact .inr h.2.1
  split
  · rename_i h; exact .inr h.2
  · exact .inl rfl

theorem SameHolds.testRunEnd (s : State) : SameHolds s s.testRunEnd := by
  have hsteps : s.testRunEnd.steps = s.steps := by rw [State.testRunEnd_frame]
  have hnails : s.testRunEnd.nails = s.nails := by rw [State.testRunEnd_frame]
  refine ⟨by rw [State.testRunEnd_frame], fun k => State.heldAt_congr hsteps k, fun n => by rw [State.nailAt_congr hnails],
    fun h => (State.canonical_congr hsteps hnails).trans h, ?_⟩
  rcases s.testRunEnd_state with h | h
  · exact .inl h
  · exact .inr (.inr (.inr (.inr ((State.allLanesIdle_iff s).mp h))))

theorem SameHolds.report (s : State) : SameHolds s s.reportOpportunity :=
  .of_tables s.reportOpportunity_lanes s.reportOpportunity_steps s.reportOpportunity_nails (by rw [s.reportOpportunity_run])

/-- Cards entering a census (R164). -/
def State.censusEntered (s : State) (cs : List CardNo) : State :=
  cs.foldl (fun t c => t.setCard c { t.cardAt c with state := .census, descriptor := none }) s

theorem State.censusEntered_frame (s : State) (cs : List CardNo) :
    s.censusEntered cs = { s with cards := (s.censusEntered cs).cards } := by
  induction cs generalizing s with
  | nil => rfl
  | cons c cs ih => exact ih (s.setCard c { s.cardAt c with state := .census, descriptor := none })

theorem State.startCensus_eq (s : State) (first : CardNo) (others : List CardNo) :
    s.startCensus first others = ({ s.censusEntered (first :: others) with
      census := some { current := first, remaining := others, stage := .identify, request := .waiting } } : State).arbitrate :=
  rfl

/-- Lanes, tables and run control are the same, and RUN_DONE stays latched. -/
structure SameBoard (s t : State) : Prop where
  lanes : t.lanes = s.lanes
  steps : t.steps = s.steps
  nails : t.nails = s.nails
  run : t.run = s.run
  done : s.latches.runDone = true → t.latches.runDone = true

theorem SameHolds.of_board {s t : State} (h : SameBoard s t) : SameHolds s t :=
  .of_tables h.lanes h.steps h.nails (by rw [h.run])

theorem SameBoard.report (s : State) : SameBoard s s.reportOpportunity :=
  ⟨s.reportOpportunity_lanes, s.reportOpportunity_steps, s.reportOpportunity_nails, s.reportOpportunity_run,
    by rw [s.reportOpportunity_latches]; exact id⟩

theorem SameBoard.censusNext (s : State) : SameBoard s s.censusNext := by
  unfold State.censusNext
  split
  · exact ⟨rfl, rfl, rfl, rfl, id⟩
  split <;> exact ⟨rfl, rfl, rfl, rfl, id⟩

/-- A property of lanes, HELD records and bindings that an event's work at a lane keeps. -/
structure LaneKept (P : State → Prop) : Prop where
  same {s t : State} : SameBoard s t → P s → P t
  /-- an IDLE lane loses a link request it does not have -/
  resting {s : State} {l : LaneNo} : (s.laneAt l).phase = .idle → P s →
    P (s.setLane l { s.laneAt l with linkRequest := .none })
  tuned {s t : State} {l : LaneNo} : Tuned l s t → (s.laneAt l).phase ≠ .idle → P s → P t
  ended {s u : State} {l : LaneNo} : Touched l s u → (u.laneAt l).phase ≠ .idle → (s.laneAt l).phase ≠ .idle → P s →
    P (u.endRelease l)

namespace LaneKept

variable {P : State → Prop} {s t : State} {l : LaneNo}

theorem work (hP : LaneKept P) (h : LaneWork l s t) (hbusy : (s.laneAt l).phase ≠ .idle) (hs : P s) : P t := by
  cases h with
  | tuned h => exact hP.tuned h hbusy hs
  | ended h hu heq => exact heq ▸ hP.ended h hu hbusy hs

theorem sameTables (hP : LaneKept P) (h : P s) (hl : t.lanes = s.lanes := by rfl) (hs : t.steps = s.steps := by rfl)
    (hn : t.nails = s.nails := by rfl) (hr : t.run = s.run := by rfl)
    (hd : s.latches.runDone = true → t.latches.runDone = true := by exact id) : P t :=
  hP.same ⟨hl, hs, hn, hr, hd⟩ h

theorem endLaneWith (hP : LaneKept P) (e : PendingEnd) (h : P s) : P (s.endLaneWith l e) := by
  by_cases hidle : (s.laneAt l).phase = .idle
  · rwa [State.endLaneWith_of_idle hidle]
  · exact hP.work (LaneWork.endLaneWith e hidle) hidle h

theorem laneCommandOk (hP : LaneKept P) (h : P s) : P (s.laneCommandOk l) := by
  by_cases hidle : (s.laneAt l).phase = .idle
  · have heq : s.laneCommandOk l = s.setLane l { s.laneAt l with linkRequest := .none } := by
      simp [State.laneCommandOk, hidle]
    exact heq ▸ hP.resting hidle h
  · exact hP.work (LaneWork.laneCommandOk hidle) hidle h

theorem laneCommandFailed (hP : LaneKept P) (h : P s) : P (s.laneCommandFailed l) := by
  by_cases hidle : (s.laneAt l).phase = .idle
  · have heq : s.laneCommandFailed l = s.setLane l { s.laneAt l with linkRequest := .none } := by
      simp [State.laneCommandFailed, hidle]
    exact heq ▸ hP.resting hidle h
  · exact hP.work (LaneWork.laneCommandFailed hidle) hidle h

/-- A lane with a command to send is busy. -/
theorem busy_of_laneCommand {s : State} {l : LaneNo} {c : LinkCommand}
    (h : s.laneCommand l = some c) : (s.laneAt l).phase ≠ .idle := by
  intro hidle
  simp [State.laneCommand, hidle] at h

theorem grantFrom (hP : LaneKept P) (fuel : Nat) (last : Fin 5) (h : P s) : P (State.grantFrom fuel last s) := by
  induction fuel generalizing last s with
  | zero => exact h
  | succ fuel ih =>
    have hfailed (r : Fin 5) (m : LaneNo) :
        P (State.grantFrom fuel r (({ s with link := { s.link with lastGranted := r } } : State).laneCommandFailed m)) :=
      ih _ (hP.laneCommandFailed (hP.sameTables h))
    unfold State.grantFrom
    split
    · exact h
    split
    · exact h
    split
    · split
      · exact h
      · exact hP.sameTables h
    · split
      · rename_i r _ _ m _ _ c hc
        split
        · have hbusy := busy_of_laneCommand hc
          have hsent : P (s.sendCommand r c) := hP.sameTables h
          exact hP.work (LaneWork.setLane rfl hbusy fun hs => ⟨hs.1, fun hne => ⟨(hs.2 hne).1, rfl⟩⟩) hbusy hsent
        · exact hfailed _ _
      · exact hfailed _ _

theorem arbitrate (hP : LaneKept P) (h : P s) : P s.arbitrate := hP.grantFrom 5 _ h

theorem cardOffline (hP : LaneKept P) (c : CardNo) (h : P s) : P (s.cardOffline c) := by
  unfold State.cardOffline
  refine List.foldlRecOn allLanes _ (hP.sameTables h) fun t ht m _ => ?_
  split
  · exact hP.endLaneWith _ ht
  · exact ht

theorem report (hP : LaneKept P) (h : P s) : P s.reportOpportunity := hP.same (.report s) h

theorem censusNext (hP : LaneKept P) (h : P s) : P s.censusNext := hP.same (.censusNext s) h

theorem flagged (hP : LaneKept P) (c : CardNo) (timedOut : Bool) (h : P s) :
    P (if timedOut then s.setCard c { s.cardAt c with timeoutSeen := true } else s) := by
  split
  · exact hP.sameTables h
  · exact h

theorem commandFailed (hP : LaneKept P) (r : Fin 5) (h : P s) : P (s.commandFailed r) := by
  unfold State.commandFailed
  split
  · exact hP.laneCommandFailed h
  · exact hP.censusNext h

theorem failInFlight (hP : LaneKept P) (f : InFlight) (timedOut : Bool) (h : P s) : P (s.failInFlight f timedOut) :=
  hP.arbitrate (hP.sameTables (s := State.commandFailed _ _)
    (hP.commandFailed _ (hP.cardOffline _ (hP.flagged f.command.card timedOut h))))

theorem abandonAll (hP : LaneKept P) (h : P s) : P s.abandonAll := by
  have hordered : P (allLanes.foldl (fun t l => t.endLaneWith l .aborted) s) :=
    List.foldlRecOn allLanes _ h fun t ht m _ => hP.endLaneWith _ ht
  unfold State.abandonAll
  dsimp only
  split
  · exact hP.grantFrom 5 _ (hP.sameTables hordered)
  · exact hP.arbitrate hordered

theorem censusEntered (hP : LaneKept P) (cs : List CardNo) {x : Option Census} (h : P s) :
    P { s.censusEntered cs with census := x } := by
  rw [State.censusEntered_frame]
  exact hP.sameTables h

theorem startCensus (hP : LaneKept P) (first : CardNo) (others : List CardNo) (h : P s) : P (s.startCensus first others) := by
  rw [State.startCensus_eq]
  exact hP.arbitrate (hP.censusEntered _ h)

end LaneKept

/-! ## Changes of records that leave them HELD or not as they were -/

namespace SameHolds

variable {s t u : State}

theorem trans (h : SameHolds s t) (g : SameHolds t u) (hr : t.run.state = s.run.state := by rfl) : SameHolds s u :=
  ⟨g.lanes.trans h.lanes, fun k => (g.held k).trans (h.held k), fun n => (g.bindings n).trans (h.bindings n),
    fun hc => g.canonical (h.canonical hc), by
      have hl : (∀ l, (t.laneAt l).phase = .idle) ↔ ∀ l, (s.laneAt l).phase = .idle :=
        forall_congr' fun l => by rw [State.laneAt_congr h.lanes]
      have hq := g.quiet
      rwa [hr, hl] at hq⟩

theorem setSlot {k : Slot} {v : StepSlot}
    (hv : (v.record.map (fun r => r.status.isHeld)).getD false = s.heldAt k) : SameHolds s (s.setSlot k v) where
  lanes := rfl
  held j := by
    unfold State.heldAt
    rw [State.recordAt_setSlot]
    split
    · rename_i h; rw [hv, h]; rfl
    · rfl
  bindings _ := rfl
  canonical h := State.canonical_setSlot h _ _
  quiet := .inl rfl

theorem setNail {n : NailNo} {e : NailEntry} (he : e.bindings = (s.nailAt n).bindings) : SameHolds s (s.setNail n e) where
  lanes := rfl
  held _ := rfl
  bindings m := by rw [State.nailAt_setNail]; split <;> simp_all
  canonical h := State.canonical_setNail h _ _
  quiet := .inl rfl

theorem mapSteps {f : StepSlot → StepSlot} (hs : s.canonical = true) (hblank : f .blank = .blank)
    (hf : ∀ v, ((f v).record.map (fun r => r.status.isHeld)).getD false = (v.record.map (fun r => r.status.isHeld)).getD false) :
    SameHolds s { s with steps := Table.mapAll .blank f s.steps } where
  lanes := rfl
  held k := by
    have hp := ((Table.wf_iff _ _).mp ((State.canonical_iff s).mp hs).1).1
    unfold State.heldAt State.recordAt State.slotAt
    dsimp only
    rw [Table.get_mapAll _ _ hblank _ hp, hf]
  bindings _ := rfl
  canonical h := by
    rw [State.canonical_iff] at h ⊢
    exact ⟨Table.wf_mapAll _ h.1, h.2⟩
  quiet := .inl rfl

theorem raiseRefs (ns : List NailNo) : SameHolds s (s.raiseRefs ns) where
  lanes := by rw [State.raiseRefs_frame]
  held k := State.heldAt_congr (by rw [State.raiseRefs_frame]) k
  bindings n := by rw [State.nailAt_raiseRefs]
  canonical h := State.canonical_raiseRefs _ h
  quiet := .inl (by rw [State.raiseRefs_frame])

theorem lowerRefs (ns : List NailNo) : SameHolds s (s.lowerRefs ns) where
  lanes := by rw [State.lowerRefs_frame]
  held k := State.heldAt_congr (by rw [State.lowerRefs_frame]) k
  bindings n := by rw [State.nailAt_lowerRefs]
  canonical h := State.canonical_lowerRefs _ h
  quiet := .inl (by rw [State.lowerRefs_frame])

theorem moveRefs (b a : NailList) : SameHolds s (s.moveRefs b a) :=
  (lowerRefs _).trans (raiseRefs _) (by rw [State.lowerRefs_frame])

theorem setRecord {k : Slot} {r : StepRecord} (h : r.status.isHeld = s.heldAt k) : SameHolds s (s.setRecord k r) :=
  setSlot h

theorem heldAt_of_record {k : Slot} {r : StepRecord} (h : s.recordAt k = some r) : s.heldAt k = r.status.isHeld := by
  unfold State.heldAt; rw [h]; rfl

theorem store {k : Slot} {p : StepProgram} (h : s.recordAt k = none) : SameHolds s (s.storeStep k p) := by
  have hfree : s.heldAt k = false := by unfold State.heldAt; rw [h]; rfl
  have hraised := raiseRefs (s := s) p.nails.toList
  have hstored (st : StepStatus) (hst : st.isHeld = false) : SameHolds s ((s.raiseRefs p.nails.toList).setRecord k
      { program := p, stats := StepStats.fresh, status := st }) :=
    hraised.trans (setRecord (by rw [hraised.held, hfree]; exact hst)) (by rw [State.raiseRefs_frame])
  have hready := hstored _ (StepStatus.ofReasons_isHeld { requested := false, nail := s.anyRetired p.nails })
  unfold State.storeStep
  dsimp only
  split
  · exact hready.trans (.report _) (by rw [State.setRecord_run, State.raiseRefs_frame])
  · exact hready

theorem edit {k : Slot} {r : StepRecord} {e : StepEdit} (hr : s.recordAt k = some r) (h : r.status.isHeld = false) :
    SameHolds s (s.applyEdit k r e) := by
  have hheld := heldAt_of_record hr
  unfold State.applyEdit
  split
  · exact setRecord hheld.symm
  · rename_i l _
    have hmoved := moveRefs (s := s) r.program.nails l
    exact hmoved.trans (setRecord (by rw [hmoved.held, hheld, h]; exact StepStatus.ofReasons_isHeld _))
      (by rw [State.moveRefs_frame])

theorem free {k : Slot} {r : StepRecord} (hr : s.recordAt k = some r) (h : r.status.isHeld = false) :
    SameHolds s (s.freeSlot k r) := by
  have hlowered := lowerRefs (s := s) r.program.nails.toList
  unfold State.freeSlot
  exact hlowered.trans (setSlot (by rw [hlowered.held, heldAt_of_record hr, h]; rfl)) (by rw [State.lowerRefs_frame])

theorem retireNail (hs : s.canonical = true) (n : NailNo) : SameHolds s (s.retireNail n) := by
  have hparked := mapSteps (s := s) (f := fun ss => if ss.gainsNail n then ss.withNailReason else ss) hs rfl fun v => by
    split
    · rename_i hgains
      obtain ⟨r, hr, -, hstatus⟩ := (StepSlot.gainsNail_iff v n).mp hgains
      have hheld : r.status.isHeld = false := by rcases hstatus with h | ⟨p, h, -⟩ <;> rw [h] <;> rfl
      simp [StepSlot.withNailReason, hr, hheld, StepStatus.ofReasons_isHeld]
    · rfl
  have hretired := hparked.trans (setNail (n := n) (e := { s.nailAt n with state := .retired }) rfl)
  exact hretired.trans (.testRunEnd _)

theorem restoreNail (hs : s.canonical = true) (n : NailNo) : SameHolds s (s.restoreNail n) := by
  have hserved : SameHolds s (s.serviceNail n) := setNail rfl
  unfold State.restoreNail
  dsimp only
  split
  · refine (hserved.trans (mapSteps (s := s.serviceNail n)
      (f := fun ss => if (s.serviceNail n).losesNail n ss then ss.withoutNailReason else ss) (hserved.canonical hs) rfl
      fun v => ?_)).trans (.report _)
    split
    · rename_i hloses
      obtain ⟨r, p, hr, hstatus, -⟩ := (State.losesNail_iff _ v n).mp hloses
      simp [StepSlot.withoutNailReason, hr, hstatus, StepStatus.ofReasons_isHeld]
      rfl
    · rfl
  · exact hserved.trans (.report _)

theorem clearMarks (hs : s.canonical = true) : SameHolds s s.clearMarks := mapSteps hs rfl fun _ => rfl

theorem recordVerdict (k : Slot) (w : VerdictWrite) : SameHolds s (s.recordVerdict k w) :=
  have htouched := Touched.recordVerdict 0 s k w
  ⟨by rw [State.recordVerdict_frame], htouched.heldAt, htouched.bindings, htouched.canonical, .inl htouched.state⟩

end SameHolds

end Sys2Proof.Machine
end

section
/-! SUPPORT. The end of a step, a dispatch and the resets on what the lanes hold, and the induction over the effects for
properties of lanes, HELD records and bindings. -/

namespace Sys2Proof.Machine

/-! ## Which records are HELD after a resolution -/

/-- No resolution leaves a record HELD (R25). -/
theorem resolvedSlot_not_held (s : State) (mark : Bool) (r : StepRecord) (p : Bool) (d : Option StepEdit) (q : Bool) :
    ((resolvedSlot s mark r p d q).record.map (fun r => r.status.isHeld)).getD false = false := by
  unfold resolvedSlot
  split
  · rfl
  · dsimp only [Option.map_some, Option.getD_some]
    split_ifs <;> rfl

theorem State.heldAt_resolve (s : State) (k j : Slot) : (s.resolve k).heldAt j = (s.heldAt j && decide (j ≠ k)) := by
  have hrest (hk : s.heldAt k = false) (h : s.resolve k = s) : (s.resolve k).heldAt j = (s.heldAt j && decide (j ≠ k)) := by
    rw [h]
    by_cases hj : j = k <;> simp [hj, hk]
  cases hr : s.recordAt k with
  | none => exact hrest (by simp [State.heldAt, hr]) (State.resolve_of_not_held (by simp [hr]))
  | some r =>
    cases hstatus : r.status with
    | held p d q =>
      unfold State.heldAt State.recordAt
      rw [State.slotAt_resolve hr hstatus]
      by_cases hj : j = k
      · rw [if_pos hj, resolvedSlot_not_held]
        simp [hj]
      · simp [hj]
    | ready | parked _ =>
      exact hrest (by simp [State.heldAt, hr, hstatus, StepStatus.isHeld])
        (State.resolve_of_not_held (by simp [hr, hstatus, StepStatus.isHeld]))

theorem State.heldAt_foldl_resolve (ks : List Slot) (s : State) (j : Slot) :
    (ks.foldl (fun t k => t.resolve k) s).heldAt j = (s.heldAt j && decide (j ∉ ks)) := by
  induction ks generalizing s with
  | nil => simp
  | cons k ks ih =>
    rw [List.foldl_cons, ih, State.heldAt_resolve]
    simp [not_or, Bool.and_assoc]

theorem State.mem_heldSlots_of_heldAt {s : State} {k : Slot} (h : s.heldAt k = true) : k ∈ s.heldSlots := by
  obtain ⟨r, hr, hheld⟩ := (s.heldAt_iff k).mp h
  refine List.mem_map.mpr ⟨(k, s.slotAt k), List.mem_filter.mpr ⟨State.listed_of_recordAt hr, ?_⟩, rfl⟩
  have hslot : (s.slotAt k).record = some r := hr
  simp [hslot, hheld]

theorem State.heldAt_resolveAll (s : State) (k : Slot) : s.resolveAll.heldAt k = false := by
  unfold State.resolveAll
  rw [State.heldAt_foldl_resolve]
  cases h : s.heldAt k with
  | false => rfl
  | true => simpa using State.mem_heldSlots_of_heldAt h

theorem State.canonical_resolveAll {s : State} (h : s.canonical = true) : s.resolveAll.canonical = true :=
  List.foldlRecOn (motive := fun t : State => t.canonical = true) _ _ h fun _ ht k _ => State.canonical_resolve ht k

/-! ## The end of a release (R123) -/

/-- The tables after the bindings of a lane are free and its record is resolved. -/
def State.releasedTables (s : State) (l : LaneNo) : State :=
  match (s.laneAt l).heldSlot with
  | none => s.freeBindings l
  | some k => (s.freeBindings l).resolve k

theorem State.endRelease_eq (s : State) (l : LaneNo) :
    s.endRelease l = (((s.releasedTables l).setLane l Lane.blank).reportOpportunity).testRunEnd := rfl

theorem State.endRelease_steps (s : State) (l : LaneNo) : (s.endRelease l).steps = (s.releasedTables l).steps := by
  rw [State.endRelease_eq, State.testRunEnd_frame]
  simp

theorem State.endRelease_nails (s : State) (l : LaneNo) : (s.endRelease l).nails = (s.releasedTables l).nails := by
  rw [State.endRelease_eq, State.testRunEnd_frame]
  simp

theorem State.releasedTables_run (s : State) (l : LaneNo) : (s.releasedTables l).run = s.run := by
  unfold State.releasedTables
  split
  · rfl
  · rw [State.resolve_frame]; rfl

theorem State.heldAt_endRelease {s : State} {l : LaneNo} {k : Slot} (h : (s.laneAt l).heldSlot = some k) (j : Slot) :
    (s.endRelease l).heldAt j = (s.heldAt j && decide (j ≠ k)) := by
  rw [State.heldAt_congr (s.endRelease_steps l), State.releasedTables, h]
  exact State.heldAt_resolve _ k j

theorem State.bindings_endRelease {s : State} (hs : s.canonical = true) (l : LaneNo) (n : NailNo) :
    ((s.endRelease l).nailAt n).bindings = (s.nailAt n).bindings.set l.val none l.isLt := by
  rw [State.nailAt_congr (s.endRelease_nails l), State.releasedTables]
  split
  · rw [State.nailAt_freeBindings hs]; rfl
  · obtain ⟨c, hc⟩ := (s.freeBindings l).nailAt_resolve_rest _ n
    rw [hc, State.nailAt_freeBindings hs]
    rfl

theorem State.laneAt_endRelease_other (s : State) {l m : LaneNo} (h : m ≠ l) : (s.endRelease l).laneAt m = s.laneAt m :=
  (LaneFrame.endRelease l s).lanes m h

theorem State.endRelease_state (s : State) (l : LaneNo) :
    (s.endRelease l).run.state = s.run.state ∨ (s.endRelease l).allLanesIdle = true := by
  have hlanes : (s.endRelease l).lanes = (((s.releasedTables l).setLane l Lane.blank).reportOpportunity).lanes := by
    rw [State.endRelease_eq, State.testRunEnd_frame]
  rw [State.allLanesIdle_congr hlanes]
  have hrun : (((s.releasedTables l).setLane l Lane.blank).reportOpportunity).run.state = s.run.state := by
    rw [State.reportOpportunity_run, State.setLane_run, State.releasedTables_run]
  rw [← hrun]
  exact State.testRunEnd_state _

/-! ## A dispatch (R103) -/

/-- The state of a dispatch before the link is granted. -/
def State.dispatched (s : State) (k : Slot) (l : LaneNo) (r : StepRecord) : State :=
  let held := (s.bindNails l r.program.nails.entries).setSlot k
    { runMark := true, record := some { r with status := .held false none false } }
  (held.setSummary { held.run.summary with dispatched := held.run.summary.dispatched + 1 }).setLane l
    (Lane.taking k r.program.timing.baseRange.val)

theorem State.dispatch_eq {s : State} {k : Slot} {r : StepRecord} (hr : s.recordAt k = some r) (l : LaneNo) :
    s.dispatch k l = (s.dispatched k l r).arbitrate := by
  unfold State.dispatch
  rw [hr]
  rfl

theorem State.bindings_bindNails_other (s : State) {l m : LaneNo} (h : m ≠ l) (es : List (Role × NailNo)) (n : NailNo) :
    ((s.bindNails l es).nailAt n).bindings[m] = (s.nailAt n).bindings[m] := by
  have hval : l.val ≠ m.val := fun heq => h (Fin.ext heq.symm)
  refine List.foldlRecOn (motive := fun t : State => (t.nailAt n).bindings[m] = (s.nailAt n).bindings[m]) es _ rfl
    fun t ht e _ => ?_
  unfold State.bindNail
  rw [State.nailAt_setNail]
  split
  · rename_i hn
    subst hn
    exact (Vector.getElem_set_ne l.isLt m.isLt hval).trans ht
  · exact ht

theorem State.heldAt_dispatched (s : State) (k : Slot) (l : LaneNo) (r : StepRecord) (j : Slot) :
    (s.dispatched k l r).heldAt j = (s.heldAt j || decide (j = k)) := by
  have hslot : (s.dispatched k l r).recordAt j =
      if j = k then some { r with status := .held false none false } else s.recordAt j := by
    have hsteps : (s.bindNails l r.program.nails.entries).recordAt j = s.recordAt j :=
      State.recordAt_congr (by rw [State.bindNails_frame]) j
    rw [← hsteps]
    exact State.recordAt_setSlot (s.bindNails l r.program.nails.entries) k
      { runMark := true, record := some { r with status := .held false none false } } j
  unfold State.heldAt
  rw [hslot]
  by_cases hj : j = k <;> simp [hj, StepStatus.isHeld]

theorem State.laneAt_dispatched (s : State) (k : Slot) (l : LaneNo) (r : StepRecord) (m : LaneNo) :
    (s.dispatched k l r).laneAt m = if m = l then Lane.taking k r.program.timing.baseRange.val else s.laneAt m := by
  unfold State.dispatched
  dsimp only
  rw [State.laneAt_setLane]
  simp only [State.laneAt_setSummary, State.laneAt_setSlot]
  rw [State.laneAt_congr (s := s) (by rw [State.bindNails_frame])]

theorem State.canonical_dispatched {s : State} (h : s.canonical = true) (k : Slot) (l : LaneNo) (r : StepRecord) :
    (s.dispatched k l r).canonical = true := by
  unfold State.dispatched
  dsimp only
  rw [State.canonical_setLane, State.canonical_setSummary]
  exact State.canonical_setSlot (State.canonical_bindNails h _ _) _ _

theorem State.bindings_dispatched_other (s : State) (k : Slot) {l m : LaneNo} (h : m ≠ l) (r : StepRecord) (n : NailNo) :
    ((s.dispatched k l r).nailAt n).bindings[m] = (s.nailAt n).bindings[m] := s.bindings_bindNails_other h _ n

/-- The record of a dispatch is READY: it is a candidate. -/
theorem State.ready_of_dispatch {s : State} (hs : s.canonical = true) {k : Slot} {l : LaneNo}
    (h : s.examine true s.window = .dispatch k l) :
    (s.laneAt l).phase = .idle ∧ ∃ r, s.recordAt k = some r ∧ r.status = .ready := by
  obtain ⟨hwindow, hidle, r, hr, -, -⟩ := State.examine_dispatch h
  have hslot : (s.slotAt k).record = some r := hr
  have hcandidate := (State.slot_mem_candidates hs k).mp (State.mem_candidates_of_window hwindow)
  simp only [StepSlot.isCandidate, hslot, Bool.and_eq_true, decide_eq_true_eq] at hcandidate
  exact ⟨hidle, r, hr, hcandidate.1.2⟩

/-! ## Resets -/

theorem State.softCleared_canonical {s : State} (h : s.canonical = true) : s.softCleared.canonical = true := by
  have hmarks := (State.canonical_iff _).mp (State.canonical_clearMarks (State.canonical_resolveAll h))
  rw [State.canonical_iff]
  exact ⟨hmarks.1, Table.wf_mapAll _ hmarks.2⟩

theorem State.laneAt_softCleared (s : State) (l : LaneNo) : s.softCleared.laneAt l = Lane.blank :=
  Vector.getElem_replicate l.isLt

theorem State.heldAt_softCleared {s : State} (h : s.canonical = true) (k : Slot) : s.softCleared.heldAt k = false := by
  have hmarks := (SameHolds.clearMarks (State.canonical_resolveAll h)).held k
  rw [State.heldAt_resolveAll] at hmarks
  exact hmarks

theorem State.bindings_softCleared {s : State} (h : s.canonical = true) (n : NailNo) :
    (s.softCleared.nailAt n).bindings = Vector.replicate 4 none := by
  have hmarks := ((Table.wf_iff _ _).mp
    ((State.canonical_iff _).mp (State.canonical_clearMarks (State.canonical_resolveAll h))).2).1
  unfold State.nailAt State.softCleared
  dsimp only
  rw [Table.get_mapAll _ _ rfl _ hmarks]
  rfl

theorem State.laneAt_hardReset (s : State) (l : LaneNo) : s.hardReset.laneAt l = Lane.blank :=
  Vector.getElem_replicate l.isLt

/-! ## Every effect -/

/-- A property of lanes, HELD records and bindings that every effect keeps. -/
structure HoldKept (P : State → Prop) : Prop extends LaneKept P where
  holds {s t : State} : SameHolds s t → P s → P t
  same h := holds (.of_board h)
  canonical {s : State} : P s → s.canonical = true
  clean {s : State} {l : LaneNo} : P s → (s.laneAt l).phase = .idle → s.laneAt l = Lane.blank
  dispatched {s : State} {k : Slot} {l : LaneNo} {r : StepRecord} : s.run.state = .running → (s.laneAt l).phase = .idle →
    s.recordAt k = some r → r.status = .ready → P s → P (s.dispatched k l r)
  cleared {s : State} : P s → P s.softCleared
  reset {s : State} : P s.hardReset

namespace HoldKept

variable {P : State → Prop} {s : State} {l : LaneNo}

theorem core (hP : HoldKept P) {t : State} (h : SameCore s t) (hs : P s) : P t :=
  hP.holds (.of_tables h.lanes h.steps h.nails h.state) hs

/-- A change of run state in which no lane becomes less than quiet. -/
theorem rerun (hP : HoldKept P) {t : State} (h : P s)
    (hr : t.run.state = .running ∨ t.run.state = .draining ∨ (s.run.state ≠ .running ∧ s.run.state ≠ .draining))
    (hl : t.lanes = s.lanes := by rfl) (hs : t.steps = s.steps := by rfl) (hn : t.nails = s.nails := by rfl) : P t := by
  refine hP.holds ⟨hl, fun k => State.heldAt_congr hs k, fun n => by rw [State.nailAt_congr hn],
    fun h => (State.canonical_congr hs hn).trans h, ?_⟩ h
  rcases hr with h | h | h
  · exact .inr (.inl h)
  · exact .inr (.inr (.inl h))
  · exact .inr (.inr (.inr (.inl h)))

theorem testRunEnd (hP : HoldKept P) (h : P s) : P s.testRunEnd := hP.holds (.testRunEnd s) h

theorem enterRunning (hP : HoldKept P) (h : P s) : P s.enterRunning :=
  hP.testRunEnd (hP.report (hP.rerun h (.inl rfl)))

theorem startRun (hP : HoldKept P) {mode : RunMode} {reverse : Bool} {weight : Fin 4} (hactive : s.run.state.active = false)
    (h : P s) : P (s.startRun mode reverse weight) := by
  have hquiet : s.run.state ≠ .running ∧ s.run.state ≠ .draining := by
    constructor <;> intro heq <;> simp [heq, RunState.active] at hactive
  have hcleared : P s.clearMarks := hP.holds (.clearMarks (hP.canonical h)) h
  have harmed := hP.rerun (t := { s.clearMarks with run := { s.run with
    state := .armed, number := s.run.number + 1
    summary := { RunSummary.cleared with mode := mode, reverse := reverse, weight := weight } } }) hcleared
    (.inr (.inr hquiet))
  unfold State.startRun
  dsimp only
  split
  · exact hP.enterRunning harmed
  · exact harmed

/-- A lane with a timer or in MEASURING is busy. -/
theorem busy (hP : HoldKept P) (h : P s) (hl : (s.laneAt l).timer ≠ none ∨ (s.laneAt l).phase = .measuring) :
    (s.laneAt l).phase ≠ .idle := by
  intro hidle
  rcases hl with hl | hl
  · exact hl (by rw [hP.clean h hidle]; rfl)
  · rw [hidle] at hl; cases hl

theorem effect (hP : HoldKept P) {t : State} (he : Effect s t) (h : P s) : P t := by
  induction he with
  | same hc => exact hP.core hc h
  | report _ ih => exact hP.report ih
  | test _ ih => exact hP.testRunEnd ih
  | store hfree _ => exact hP.holds (.store hfree) h
  | restatus hr hheld _ => exact hP.holds (.setRecord (hheld.trans (SameHolds.heldAt_of_record hr).symm)) h
  | edit hr hheld _ => exact hP.holds (.edit hr hheld) h
  | free hr hheld => exact hP.holds (.free hr hheld) h
  | retireNail => exact hP.holds (.retireNail (hP.canonical h) _) h
  | restoreNail => exact hP.holds (.restoreNail (hP.canonical h) _) h
  | markCommon => exact hP.holds (.setNail (by rfl)) h
  | startCensus _ => exact hP.toLaneKept.startCensus _ _ h
  | startRun hactive _ => exact hP.startRun hactive h
  | enterRunning _ => exact hP.enterRunning h
  | abortArmed harmed => exact hP.rerun h (.inr (.inr (by rw [harmed]; exact ⟨nofun, nofun⟩)))
  | drain _ => exact hP.rerun h (.inr (.inl rfl))
  | force _ => exact hP.testRunEnd (hP.abandonAll h)
  | forceRun _ => exact hP.testRunEnd (hP.abandonAll (hP.rerun h (.inr (.inl rfl))))
  | softReset => exact hP.toLaneKept.startCensus _ _ (hP.cleared h)
  | hardReset => exact hP.reset
  | skip _ => exact hP.testRunEnd (hP.holds (.recordVerdict _ _) h)
  | dispatch hrunning hd =>
    obtain ⟨hidle, r, hr, hready⟩ := State.ready_of_dispatch (hP.canonical h) hd
    rw [State.dispatch_eq hr]
    exact hP.arbitrate (hP.dispatched hrunning hidle hr hready h)
  | @sendStart l m aperture htimer =>
    refine hP.work (LaneWork.sendStart _ aperture fun hs => hs.none fun hclosing => ?_)
      (hP.busy h (.inl (by rw [htimer]; exact Option.some_ne_none _))) h
    rw [hs.1 hclosing] at htimer
    cases htimer
  | verdict hl => exact hP.arbitrate (hP.work (.enterReleasing (.clearOutstanding _ _) _) (hP.busy h hl) h)
  | retry hl => exact hP.work (.retryLane _ _ hl) (hP.busy h (.inr hl)) h
  | @endRelease l m htimer =>
    have hbusy := hP.busy h (.inl (by rw [htimer]; exact Option.some_ne_none _))
    exact hP.ended (Touched.refl _ _) hbusy hbusy h
  | laneOk => exact hP.arbitrate (hP.laneCommandOk (hP.sameTables h))
  | censusOpened => exact hP.arbitrate (hP.censusNext (hP.report (hP.sameTables h)))
  | descriptorStored => exact hP.arbitrate (hP.sameTables h)
  | descriptorRefused => exact hP.arbitrate (hP.censusNext (hP.cardOffline _ (hP.sameTables h)))
  | censusTimeout => exact hP.arbitrate (hP.censusNext (hP.sameTables h))
  | resend => exact hP.sameTables h
  | failure _ => exact hP.failInFlight _ _ h

theorem step (hP : HoldKept P) {t : State} (hstep : Machine.step s = .next t) (h : P s) : P t :=
  step_keeps (fun _ _ => hP.core) (fun _ _ he => hP.effect he) hstep h

end HoldKept

end Sys2Proof.Machine
end

section
/-! CERTIFICATE. Busy lanes and HELD records stay matched, quiet lanes stay quiet and clean, and a census is in progress only
while no run is. -/

namespace Sys2Proof.Machine

/-! ## Busy lanes and HELD records (R109) -/

/-- The lanes and the HELD records matched, said with the HELD test of a slot. -/
structure Matched (s : State) : Prop where
  clean : ∀ l, (s.laneAt l).phase = .idle → s.laneAt l = Lane.blank
  holds : ∀ l, (s.laneAt l).phase ≠ .idle → ∃ k, (s.laneAt l).heldSlot = some k ∧ s.heldAt k = true
  own : ∀ l m, (s.laneAt l).phase ≠ .idle → (s.laneAt m).phase ≠ .idle →
    (s.laneAt l).heldSlot = (s.laneAt m).heldSlot → l = m
  busy : ∀ k, s.heldAt k = true → ∃ l, (s.laneAt l).phase ≠ .idle ∧ (s.laneAt l).heldSlot = some k

theorem matched_iff (s : State) : Matched s ↔ s.heldMatches := by
  constructor
  · intro h
    refine ⟨fun l hl => ?_, h.clean, h.own, fun k r hr hheld => h.busy k ((s.heldAt_iff k).mpr ⟨r, hr, hheld⟩)⟩
    obtain ⟨k, hslot, hheld⟩ := h.holds l hl
    obtain ⟨r, hr, hstatus⟩ := (s.heldAt_iff k).mp hheld
    exact ⟨k, r, hslot, hr, hstatus⟩
  · rintro ⟨hholds, hclean, hown, hbusy⟩
    refine ⟨hclean, fun l hl => ?_, hown, fun k hk => ?_⟩
    · obtain ⟨k, r, hslot, hr, hstatus⟩ := hholds l hl
      exact ⟨k, hslot, (s.heldAt_iff k).mpr ⟨r, hr, hstatus⟩⟩
    · obtain ⟨r, hr, hstatus⟩ := (s.heldAt_iff k).mp hk
      exact hbusy k r hr hstatus

namespace Matched

variable {s t : State} {l : LaneNo}

theorem same (h : SameHolds s t) (hs : Matched s) : Matched t where
  clean l := by rw [State.laneAt_congr h.lanes]; exact hs.clean l
  holds l := by simp only [State.laneAt_congr h.lanes, h.held]; exact hs.holds l
  own l m := by simp only [State.laneAt_congr h.lanes]; exact hs.own l m
  busy k := by simp only [State.laneAt_congr h.lanes, h.held]; exact hs.busy k

/-- Every lane is busy and holds a slot as before. -/
theorem of_touched (h : Touched l s t) (hl : (t.laneAt l).phase ≠ .idle) (hl' : (s.laneAt l).phase ≠ .idle)
    (hs : Matched s) : Matched t := by
  have hslot (m : LaneNo) : (t.laneAt m).heldSlot = (s.laneAt m).heldSlot := by
    by_cases hm : m = l
    · rw [hm, h.slot]
    · rw [h.other hm]
  have hbusy (m : LaneNo) : (t.laneAt m).phase ≠ .idle ↔ (s.laneAt m).phase ≠ .idle := by
    by_cases hm : m = l
    · rw [hm]; exact ⟨fun _ => hl', fun _ => hl⟩
    · rw [h.other hm]
  refine ⟨fun m hm => ?_, ?_, ?_, ?_⟩
  · by_cases heq : m = l
    · rw [heq] at hm; exact absurd hm hl
    · rw [h.other heq] at hm ⊢; exact hs.clean m hm
  · simp only [hslot, hbusy, h.heldAt]; exact hs.holds
  · simp only [hslot, hbusy]; exact hs.own
  · simp only [hslot, hbusy, h.heldAt]; exact hs.busy

/-- The end of a step takes its lane and its record out of the matching. -/
theorem endRelease (hl : (s.laneAt l).phase ≠ .idle) (hs : Matched s) : Matched (s.endRelease l) := by
  obtain ⟨k, hk, -⟩ := hs.holds l hl
  have hidle : ((s.endRelease l).laneAt l).phase = .idle := by rw [State.laneAt_endRelease]; rfl
  have hheld (j : Slot) : (s.endRelease l).heldAt j = (s.heldAt j && decide (j ≠ k)) := State.heldAt_endRelease hk j
  have hother {m : LaneNo} (hm : ((s.endRelease l).laneAt m).phase ≠ .idle) :
      m ≠ l ∧ (s.endRelease l).laneAt m = s.laneAt m := by
    have hne : m ≠ l := fun heq => hm (heq ▸ hidle)
    exact ⟨hne, s.laneAt_endRelease_other hne⟩
  refine ⟨fun m hm => ?_, fun m hm => ?_, fun m n hm hn => ?_, fun j hj => ?_⟩
  · by_cases heq : m = l
    · rw [heq, State.laneAt_endRelease]
    · rw [s.laneAt_endRelease_other heq] at hm ⊢; exact hs.clean m hm
  · obtain ⟨hne, heq⟩ := hother hm
    rw [heq] at hm ⊢
    obtain ⟨j, hj, hjheld⟩ := hs.holds m hm
    refine ⟨j, hj, ?_⟩
    have hjk : j ≠ k := fun hjk => hne (hs.own m l hm hl (by rw [hj, hk, hjk]))
    rw [hheld, hjheld]
    simpa using hjk
  · obtain ⟨-, hmeq⟩ := hother hm
    obtain ⟨-, hneq⟩ := hother hn
    rw [hmeq] at hm ⊢
    rw [hneq] at hn ⊢
    exact hs.own m n hm hn
  · rw [hheld, Bool.and_eq_true, decide_eq_true_eq] at hj
    obtain ⟨m, hm, hmslot⟩ := hs.busy j hj.1
    have hne : m ≠ l := by
      rintro rfl
      exact hj.2 (Option.some.inj (hmslot.symm.trans hk))
    exact ⟨m, by rwa [s.laneAt_endRelease_other hne], by rwa [s.laneAt_endRelease_other hne]⟩

/-- A dispatch matches an IDLE lane with a record that was not HELD. -/
theorem dispatched {k : Slot} {r : StepRecord} (hl : (s.laneAt l).phase = .idle) (hr : s.recordAt k = some r)
    (hready : r.status = .ready) (hs : Matched s) : Matched (s.dispatched k l r) := by
  have hfree : s.heldAt k = false := by rw [SameHolds.heldAt_of_record hr, hready]; rfl
  have hnobody (m : LaneNo) (hm : (s.laneAt m).phase ≠ .idle) : (s.laneAt m).heldSlot ≠ some k := by
    intro hslot
    obtain ⟨j, hj, hheld⟩ := hs.holds m hm
    rw [hslot] at hj
    rw [← Option.some.inj hj, hfree] at hheld
    cases hheld
  have hother {m : LaneNo} (h : m ≠ l) : (s.dispatched k l r).laneAt m = s.laneAt m := by
    rw [State.laneAt_dispatched, if_neg h]
  have hself : (s.dispatched k l r).laneAt l = Lane.taking k r.program.timing.baseRange.val := by
    rw [State.laneAt_dispatched, if_pos rfl]
  have htaken : (Lane.taking k r.program.timing.baseRange.val).heldSlot = some k := rfl
  have hbusy : (Lane.taking k r.program.timing.baseRange.val).phase ≠ .idle := nofun
  refine ⟨fun m hm => ?_, fun m hm => ?_, fun m n hm hn hslot => ?_, fun j hj => ?_⟩
  · by_cases heq : m = l
    · rw [heq, hself] at hm; exact absurd hm hbusy
    · rw [hother heq] at hm ⊢; exact hs.clean m hm
  · by_cases heq : m = l
    · rw [heq, hself]
      exact ⟨k, htaken, by simp [State.heldAt_dispatched]⟩
    · rw [hother heq] at hm ⊢
      obtain ⟨j, hj, hheld⟩ := hs.holds m hm
      exact ⟨j, hj, by simp [State.heldAt_dispatched, hheld]⟩
  · by_cases hml : m = l <;> by_cases hnl : n = l
    · rw [hml, hnl]
    · rw [hml, hself, hother hnl, htaken] at hslot
      rw [hother hnl] at hn
      exact absurd hslot.symm (hnobody n hn)
    · rw [hnl, hself, hother hml, htaken] at hslot
      rw [hother hml] at hm
      exact absurd hslot (hnobody m hm)
    · rw [hother hml] at hm hslot
      rw [hother hnl] at hn hslot
      exact hs.own m n hm hn hslot
  · rw [State.heldAt_dispatched, Bool.or_eq_true, decide_eq_true_eq] at hj
    rcases hj with hj | rfl
    · obtain ⟨m, hm, hslot⟩ := hs.busy j hj
      have hne : m ≠ l := fun heq => hm (heq ▸ hl)
      exact ⟨m, by rwa [hother hne], by rwa [hother hne]⟩
    · exact ⟨l, by rwa [hself], by rw [hself, htaken]⟩

theorem of_blank (hl : ∀ l, s.laneAt l = Lane.blank) (hh : ∀ k, s.heldAt k = false) : Matched s := by
  refine ⟨fun l _ => hl l, fun l h => ?_, fun l _ h => ?_, fun k h => ?_⟩
  · rw [hl] at h; exact absurd rfl h
  · rw [hl] at h; exact absurd rfl h
  · rw [hh] at h; cases h

end Matched

theorem State.setLane_laneAt (s : State) (l : LaneNo) : s.setLane l (s.laneAt l) = s := by
  unfold State.setLane State.laneAt
  rw [show s.lanes.set l.val s.lanes[l] l.isLt = s.lanes from Vector.set_getElem_self l.isLt]

/-- A clean IDLE lane has no link request to lose. -/
theorem State.setLane_resting {s : State} {l : LaneNo} (h : s.laneAt l = Lane.blank) :
    s.setLane l { s.laneAt l with linkRequest := .none } = s := by
  have hsame : ({ s.laneAt l with linkRequest := .none } : Lane) = s.laneAt l := by rw [h]; rfl
  rw [hsame, State.setLane_laneAt]

theorem State.hardReset_blank (s : State) : s.hardReset.canonical = true ∧ ∀ k, s.hardReset.heldAt k = false :=
  ⟨rfl, fun _ => rfl⟩

theorem matched_holdKept : HoldKept (fun s => s.canonical = true ∧ Matched s) where
  holds h hs := ⟨h.canonical hs.1, hs.2.same h⟩
  resting hidle hs := by rwa [State.setLane_resting (hs.2.clean _ hidle)]
  tuned h hl hs := ⟨h.touched.canonical hs.1, hs.2.of_touched h.touched h.busy hl⟩
  ended h hu hl hs := ⟨State.canonical_endRelease (h.canonical hs.1) _, (hs.2.of_touched h hu hl).endRelease hu⟩
  canonical hs := hs.1
  clean hs := hs.2.clean _
  dispatched _ hl hr hready hs := ⟨State.canonical_dispatched hs.1 _ _ _, hs.2.dispatched hl hr hready⟩
  cleared hs := ⟨State.softCleared_canonical hs.1, .of_blank (State.laneAt_softCleared _) (State.heldAt_softCleared hs.1)⟩
  reset {s} := ⟨s.hardReset_blank.1, .of_blank s.laneAt_hardReset s.hardReset_blank.2⟩

/-- Settles O59, by the induction over the effects. -/
theorem everyStepKeepsHeldRecordsMatched : Obligations.EveryStepKeepsHeldRecordsMatched :=
  fun s t hcanonical hmatches hstep =>
    (matched_iff t).mp (matched_holdKept.step hstep ⟨hcanonical, (matched_iff s).mpr hmatches⟩).2

/-! ## Pending ends (R125) -/

theorem pendingEnds_holdKept : HoldKept (fun s => (s.canonical = true ∧ Matched s) ∧ ∀ l, (s.laneAt l).endSound) where
  holds h hs := ⟨matched_holdKept.holds h hs.1, fun l => by rw [State.laneAt_congr h.lanes]; exact hs.2 l⟩
  resting hidle hs := by rwa [State.setLane_resting (hs.1.2.clean _ hidle)]
  tuned {s t l} h hl hs := by
    refine ⟨matched_holdKept.tuned h hl hs.1, fun m => ?_⟩
    by_cases hm : m = l
    · rw [hm]; exact h.endSound (hs.2 l)
    · rw [h.touched.other hm]; exact hs.2 m
  ended {s u l} h hu hl hs := by
    refine ⟨matched_holdKept.ended h hu hl hs.1, fun m => ?_⟩
    by_cases hm : m = l
    · rw [hm, State.laneAt_endRelease]; exact Lane.endSound_blank
    · rw [State.laneAt_endRelease_other _ hm, h.other hm]; exact hs.2 m
  canonical hs := hs.1.1
  clean hs := hs.1.2.clean _
  dispatched {s k l r} hrun hl hr hready hs := by
    refine ⟨matched_holdKept.dispatched hrun hl hr hready hs.1, fun m => ?_⟩
    rw [State.laneAt_dispatched]
    split
    · exact ⟨fun _ => rfl, fun h => absurd rfl h⟩
    · exact hs.2 m
  cleared {s} hs := ⟨matched_holdKept.cleared hs.1, fun l => by rw [State.laneAt_softCleared]; exact Lane.endSound_blank⟩
  reset {s} := ⟨matched_holdKept.reset, fun l => by rw [State.laneAt_hardReset]; exact Lane.endSound_blank⟩

/-- The second half of what the link keeps: the pending ends stay sound. -/
theorem pendingEndsSound_step {s t : State} (hcanonical : s.canonical = true) (hmatches : s.heldMatches)
    (hstep : step s = .next t) (h : s.pendingEndsSound) : t.pendingEndsSound :=
  (pendingEnds_holdKept.step hstep ⟨⟨hcanonical, (matched_iff s).mpr hmatches⟩, h⟩).2

/-! ## Quiet and clean lanes (R35, R64, R109) -/

/-- A lane may be busy only in a RUNNING or DRAINING run. -/
theorem State.lanesQuiet_of_busy {s t : State} {l : LaneNo} (h : s.lanesQuiet) (hl : (s.laneAt l).phase ≠ .idle)
    (ht : t.run.state = s.run.state) : t.lanesQuiet :=
  fun hrun hdrain => absurd (h (ht ▸ hrun) (ht ▸ hdrain) l) hl

/-- An IDLE lane is blank and nothing is bound to it. -/
def State.laneClean (s : State) (l : LaneNo) : Prop :=
  (s.laneAt l).phase = .idle → s.laneAt l = Lane.blank ∧ ∀ n, (s.nailAt n).bindings[l] = none

theorem State.laneClean_of_same {s t : State} {l : LaneNo} (hl : t.laneAt l = s.laneAt l)
    (hn : ∀ n, (t.nailAt n).bindings[l] = (s.nailAt n).bindings[l]) (h : s.laneClean l) : t.laneClean l := by
  unfold State.laneClean
  simp only [hl, hn]
  exact h

theorem State.laneClean_of_busy {s : State} {l : LaneNo} (h : (s.laneAt l).phase ≠ .idle) : s.laneClean l :=
  fun hidle => absurd hidle h

theorem State.laneClean_endRelease {s : State} (hs : s.canonical = true) (l : LaneNo) {m : LaneNo} (h : s.laneClean m) :
    (s.endRelease l).laneClean m := by
  by_cases hm : m = l
  · rw [hm]
    refine fun _ => ⟨s.laneAt_endRelease l, fun n => ?_⟩
    rw [State.bindings_endRelease hs]
    exact Vector.getElem_set_self l.isLt
  · refine State.laneClean_of_same (s.laneAt_endRelease_other hm) (fun n => ?_) h
    rw [State.bindings_endRelease hs]
    exact Vector.getElem_set_ne l.isLt m.isLt fun heq => hm (Fin.ext heq.symm)

/-- The lanes of a run control that is quiet, with nothing bound to an IDLE lane. -/
structure Quiet (s : State) : Prop where
  canonical : s.canonical = true
  quiet : s.lanesQuiet
  clean : ∀ l, s.laneClean l

theorem Quiet.of_touched {s t : State} {l : LaneNo} (h : Touched l s t) (ht : (t.laneAt l).phase ≠ .idle)
    (hl : (s.laneAt l).phase ≠ .idle) (hs : Quiet s) : Quiet t where
  canonical := h.canonical hs.canonical
  quiet := State.lanesQuiet_of_busy hs.quiet hl h.state
  clean m := by
    by_cases hm : m = l
    · exact State.laneClean_of_busy (hm ▸ ht)
    · exact State.laneClean_of_same (h.other hm) (fun n => by rw [h.bindings]) (hs.clean m)

theorem quiet_holdKept : HoldKept Quiet where
  holds {s t} h hs := by
    refine ⟨h.canonical hs.canonical, fun hrun hdrain l => ?_, fun l =>
      State.laneClean_of_same (State.laneAt_congr h.lanes l) (fun n => by rw [h.bindings]) (hs.clean l)⟩
    rw [State.laneAt_congr h.lanes]
    rcases h.quiet with hq | hq | hq | ⟨hq, hq'⟩ | hq
    · exact hs.quiet (hq ▸ hrun) (hq ▸ hdrain) l
    · exact absurd hq hrun
    · exact absurd hq hdrain
    · exact hs.quiet hq hq' l
    · exact hq l
  resting hidle hs := by rwa [State.setLane_resting (hs.clean _ hidle).1]
  tuned h hl hs := hs.of_touched h.touched h.busy hl
  ended {s u l} h hu hl hs := by
    have huq := hs.of_touched h hu hl
    refine ⟨State.canonical_endRelease huq.canonical l, ?_, fun m => State.laneClean_endRelease huq.canonical l (huq.clean m)⟩
    rcases u.endRelease_state l with hstate | hidle
    · exact fun hrun hdrain => absurd (huq.quiet (hstate ▸ hrun) (hstate ▸ hdrain) l) hu
    · exact fun _ _ => (State.allLanesIdle_iff _).mp hidle
  canonical hs := hs.canonical
  clean hs hidle := (hs.clean _ hidle).1
  dispatched {s k l r} hrun hl _ _ hs := by
    refine ⟨State.canonical_dispatched hs.canonical _ _ _, fun hnot => ?_, fun m => ?_⟩
    · refine absurd ?_ hnot
      unfold State.dispatched
      rw [State.bindNails_frame]
      exact hrun
    · by_cases hm : m = l
      · refine State.laneClean_of_busy ?_
        rw [hm, State.laneAt_dispatched, if_pos rfl]
        exact nofun
      · exact State.laneClean_of_same (by rw [State.laneAt_dispatched, if_neg hm])
          (s.bindings_dispatched_other k hm r) (hs.clean m)
  cleared {s} hs := by
    refine ⟨State.softCleared_canonical hs.canonical, fun _ _ l => by rw [State.laneAt_softCleared]; rfl, fun l _ =>
      ⟨State.laneAt_softCleared s l, fun n => ?_⟩⟩
    rw [State.bindings_softCleared hs.canonical]
    exact Vector.getElem_replicate l.isLt
  reset {s} := by
    refine ⟨s.hardReset_blank.1, fun _ _ l => by rw [State.laneAt_hardReset]; rfl, fun l _ =>
      ⟨State.laneAt_hardReset s l, fun n => ?_⟩⟩
    exact Vector.getElem_replicate l.isLt

end Sys2Proof.Machine
end

section
/-! CERTIFICATE. A census is in progress only while no run is (R66, R164). -/

namespace Sys2Proof.Machine

/-! ## Runs that are not in progress stay so -/

theorem State.testRunEnd_of_inactive {s : State} (h : s.run.state.active = false) : s.testRunEnd = s := by
  unfold State.testRunEnd
  split
  · rename_i hrun; rw [hrun.1] at h; cases h
  split
  · rename_i hrun; rw [hrun.1] at h; cases h
  · rfl

/-- No change of tables, lanes or link starts a run. -/
theorem inactive_tableKept : TableKept (fun s => s.run.state.active = false) where
  tables _ _ hr h := by rwa [hr]
  testRunEnd h := by rwa [State.testRunEnd_of_inactive h]
  slot _ h := h
  nail _ h := h
  slots _ _ h := h
  entries _ _ h := h
  resolve h := by rwa [State.resolve_frame]
  edit _ _ _ h := by
    unfold State.applyEdit
    split
    · exact h
    · rwa [State.moveRefs_frame]
  free _ h := by unfold State.freeSlot; rwa [State.lowerRefs_frame]
  store _ _ h := by
    unfold State.storeStep
    dsimp only
    split
    · rwa [State.reportOpportunity_run, State.raiseRefs_frame]
    · rwa [State.raiseRefs_frame]

/-! ## Operations that leave the lanes, the cards and the link -/

namespace SameLinks

variable {s t u : State}

theorem trans (h : SameLinks s t) (g : SameLinks t u) : SameLinks s u := by
  obtain ⟨hlanes, hports, hcards, hlink, hcensus⟩ := h
  obtain ⟨glanes, gports, gcards, glink, gcensus⟩ := g
  exact ⟨glanes.trans hlanes, gports.trans hports, gcards.trans hcards, glink.trans hlink, gcensus.trans hcensus⟩

theorem lanes (h : SameLinks s t) : t.lanes = s.lanes := h.1

theorem link (h : SameLinks s t) : t.link = s.link := by obtain ⟨_, _, _, hlink, _⟩ := h; exact hlink

theorem census (h : SameLinks s t) : t.census = s.census := by obtain ⟨_, _, _, _, hcensus⟩ := h; exact hcensus

theorem report (s : State) : SameLinks s s.reportOpportunity := by
  rw [State.reportOpportunity_eq]; exact ⟨rfl, rfl, rfl, rfl, rfl⟩

theorem testRunEnd (s : State) : SameLinks s s.testRunEnd := by
  rw [State.testRunEnd_frame]; exact ⟨rfl, rfl, rfl, rfl, rfl⟩

theorem raiseRefs (s : State) (ns : List NailNo) : SameLinks s (s.raiseRefs ns) := by
  rw [State.raiseRefs_frame]; exact ⟨rfl, rfl, rfl, rfl, rfl⟩

theorem lowerRefs (s : State) (ns : List NailNo) : SameLinks s (s.lowerRefs ns) := by
  rw [State.lowerRefs_frame]; exact ⟨rfl, rfl, rfl, rfl, rfl⟩

theorem moveRefs (s : State) (b a : NailList) : SameLinks s (s.moveRefs b a) := (lowerRefs s _).trans (raiseRefs _ _)

theorem setSlot (s : State) (k : Slot) (v : StepSlot) : SameLinks s (s.setSlot k v) := ⟨rfl, rfl, rfl, rfl, rfl⟩

theorem setRecord (s : State) (k : Slot) (r : StepRecord) : SameLinks s (s.setRecord k r) := setSlot s k _

theorem storeStep (s : State) (k : Slot) (p : StepProgram) : SameLinks s (s.storeStep k p) := by
  have hstored (r : StepRecord) : SameLinks s ((s.raiseRefs p.nails.toList).setRecord k r) :=
    (raiseRefs s _).trans (setRecord _ k r)
  unfold State.storeStep
  dsimp only
  split
  · exact (hstored _).trans (report _)
  · exact hstored _

theorem applyEdit (s : State) (k : Slot) (r : StepRecord) (e : StepEdit) : SameLinks s (s.applyEdit k r e) := by
  unfold State.applyEdit
  split
  · exact setRecord s k _
  · exact (moveRefs s _ _).trans (setRecord _ k _)

theorem freeSlot (s : State) (k : Slot) (r : StepRecord) : SameLinks s (s.freeSlot k r) :=
  (lowerRefs s _).trans (setSlot _ k _)

theorem retireNail (s : State) (n : NailNo) : SameLinks s (s.retireNail n) :=
  trans (t := ({ s with steps := _ } : State).setNail n _) ⟨rfl, rfl, rfl, rfl, rfl⟩ (testRunEnd _)

theorem restoreNail (s : State) (n : NailNo) : SameLinks s (s.restoreNail n) := by
  unfold State.restoreNail
  dsimp only
  split
  · exact trans ⟨rfl, rfl, rfl, rfl, rfl⟩ (report _)
  · exact trans ⟨rfl, rfl, rfl, rfl, rfl⟩ (report _)

theorem recordVerdict (s : State) (k : Slot) (w : VerdictWrite) : SameLinks s (s.recordVerdict k w) := by
  rw [State.recordVerdict_frame]; exact ⟨rfl, rfl, rfl, rfl, rfl⟩

theorem enterRunning (s : State) : SameLinks s s.enterRunning :=
  trans (t := ({ s with run := { s.run with state := .running } } : State)) ⟨rfl, rfl, rfl, rfl, rfl⟩
    ((report _).trans (testRunEnd _))

theorem startRun (s : State) (mode : RunMode) (reverse : Bool) (weight : Fin 4) :
    SameLinks s (s.startRun mode reverse weight) := by
  unfold State.startRun
  dsimp only
  split
  · exact trans ⟨rfl, rfl, rfl, rfl, rfl⟩ (enterRunning _)
  · exact ⟨rfl, rfl, rfl, rfl, rfl⟩

end SameLinks

/-! ## Only the starts of a census begin one -/

/-- No census has begun. -/
def NoCensusBegun (s t : State) : Prop := s.census = none → t.census = none

namespace NoCensusBegun

variable {s t u : State}

theorem of_eq (h : t.census = s.census := by rfl) : NoCensusBegun s t := fun hs => h.trans hs

theorem trans (h : NoCensusBegun s t) (g : NoCensusBegun t u) : NoCensusBegun s u := fun hs => g (h hs)

theorem lane {l : LaneNo} (h : LaneFrame l s t) : NoCensusBegun s t := of_eq h.census

theorem testRunEnd (s : State) : NoCensusBegun s s.testRunEnd := of_eq (SameLinks.testRunEnd s).census

theorem arbitrate (h : NoCensusBegun s t) : NoCensusBegun s t.arbitrate := fun hs => by
  rcases (ArbiterFrame.arbitrate t).census with heq | ⟨x, hx, -⟩
  · rw [heq, h hs]
  · rw [h hs] at hx; cases hx

theorem censusNext (h : NoCensusBegun s t) : NoCensusBegun s t.censusNext := fun hs => by
  have hnone := h hs
  unfold State.censusNext
  rw [hnone]
  exact hnone

theorem failInFlight (s : State) (f : InFlight) (timedOut : Bool) : NoCensusBegun s (s.failInFlight f timedOut) := by
  unfold State.failInFlight
  refine arbitrate (trans ?_ (of_eq (s := State.commandFailed _ _)))
  have hoffline (u : State) (hu : u.census = s.census) : NoCensusBegun s (u.cardOffline f.command.card) :=
    of_eq ((State.cardOffline_frame u _).census.trans hu)
  have hflagged : NoCensusBegun s ((if timedOut then s.setCard f.command.card
      { s.cardAt f.command.card with timeoutSeen := true } else s).cardOffline f.command.card) :=
    hoffline _ (by split <;> rfl)
  unfold State.commandFailed
  split
  · exact hflagged.trans (lane (LaneFrame.laneCommandFailed _ _))
  · exact hflagged.censusNext

theorem abandonAll (s : State) : NoCensusBegun s s.abandonAll := by
  have hordered : (allLanes.foldl (fun t l => t.endLaneWith l .aborted) s).census = s.census :=
    List.foldlRecOn (motive := fun t : State => t.census = s.census) allLanes _ rfl fun t ht l _ =>
      (LaneFrame.endLaneWith l t .aborted).census.trans ht
  intro hs
  have hnone := hordered.trans hs
  unfold State.abandonAll
  dsimp only
  split
  · rcases (ArbiterFrame.grantFrom 5 (Config.freeRank s.freeDraws)
      { allLanes.foldl (fun t l => t.endLaneWith l .aborted) s with freeDraws := s.freeDraws + 1 }).census with
      heq | ⟨x, hx, -⟩
    · exact heq.trans hnone
    · exact absurd (hx.symm.trans hnone) nofun
  · exact arbitrate (fun _ => hnone) hs

end NoCensusBegun

/-! ## The census and the run -/

theorem State.censusQuiet.kept {s t : State} (h : s.censusQuiet) (hc : NoCensusBegun s t)
    (hr : s.run.state.active = false → t.run.state.active = false) : t.censusQuiet :=
  fun ht => hr (h fun hs => ht (hc hs))

theorem State.censusQuiet.of_inactive {s : State} (h : s.run.state.active = false) : s.censusQuiet := fun _ => h

theorem State.censusQuiet.of_none {s : State} (h : s.census = none) : s.censusQuiet := fun hs => absurd h hs

theorem State.censusQuiet.ofArmed {s : State} (h : s.censusQuiet) (hr : s.run.state.active = true) : s.census = none := by
  by_contra hs
  rw [h hs] at hr
  cases hr

/-- While a run is in progress there is no census, so any of its changes is harmless. -/
theorem State.censusQuiet.active {s t : State} (h : s.censusQuiet) (hr : s.run.state.active = true)
    (hc : NoCensusBegun s t) : t.censusQuiet := .of_none (hc (h.ofArmed hr))

theorem State.dispatch_noCensus (s : State) (k : Slot) (l : LaneNo) : NoCensusBegun s (s.dispatch k l) := by
  cases hr : s.recordAt k with
  | none => unfold State.dispatch; rw [hr]; exact .of_eq
  | some r =>
    rw [State.dispatch_eq hr]
    refine .arbitrate (.of_eq ?_)
    unfold State.dispatched
    rw [State.bindNails_frame]
    rfl

theorem censusQuiet_effect {s t : State} (he : Effect s t) (h : s.censusQuiet) : t.censusQuiet := by
  have hP := inactive_tableKept
  induction he with
  | same hc => exact h.kept (.of_eq hc.census) fun hr => by rwa [hc.state]
  | report _ ih => exact ih.kept (.of_eq (SameLinks.report _).census) hP.report
  | test _ ih => exact ih.kept (.testRunEnd _) hP.testRunEnd
  | store hfree hsound => exact h.kept (.of_eq (SameLinks.storeStep _ _ _).census) (hP.store hfree hsound)
  | restatus _ _ _ => exact h.kept .of_eq id
  | edit hr hheld hsound => exact h.kept (.of_eq (SameLinks.applyEdit _ _ _ _).census) (hP.edit hr hheld hsound)
  | free hr _ => exact h.kept (.of_eq (SameLinks.freeSlot _ _ _).census) (hP.free hr)
  | retireNail => exact h.kept (.of_eq (SameLinks.retireNail _ _).census) hP.retireNail
  | restoreNail => exact h.kept (.of_eq (SameLinks.restoreNail _ _).census) hP.restoreNail
  | markCommon => exact h.kept .of_eq id
  | startCensus hactive => exact .of_inactive (hP.startCensus hactive)
  | startRun _ hnone => exact .of_none ((SameLinks.startRun _ _ _ _).census.trans hnone)
  | enterRunning harmed => exact h.active (by rw [harmed]; rfl) (.of_eq (SameLinks.enterRunning _).census)
  | abortArmed harmed => exact h.active (by rw [harmed]; rfl) .of_eq
  | drain hrun => exact h.active (by rw [hrun]; rfl) .of_eq
  | force hdrain => exact h.active (by rw [hdrain]; rfl) (.trans (.abandonAll _) (.testRunEnd _))
  | forceRun hrun =>
    exact h.active (by rw [hrun]; rfl) (.trans .of_eq (.trans (.abandonAll _) (.testRunEnd _)))
  | softReset => exact .of_inactive (hP.startCensus (s := State.softCleared _) rfl)
  | hardReset => exact .of_inactive rfl
  | skip hrun =>
    exact h.active (by rw [hrun]; rfl) (.trans (.of_eq (SameLinks.recordVerdict _ _ _).census) (.testRunEnd _))
  | dispatch hrun _ => exact h.active (by rw [hrun]; rfl) (State.dispatch_noCensus _ _ _)
  | sendStart _ => exact h.kept .of_eq id
  | verdict _ =>
    exact h.kept (.arbitrate (.trans (s := _) .of_eq (.lane (LaneFrame.enterReleasing _ _ _))))
      fun hr => hP.arbitrate (hP.enterReleasing (hP.clearOutstanding hr))
  | retry _ => exact h.kept (.trans .of_eq (.lane (LaneFrame.startSettle _ _ _ _))) fun hr => hP.startSettle (hP.sameTables hr)
  | endRelease _ => exact h.kept (.lane (LaneFrame.endRelease _ _)) hP.endRelease
  | laneOk =>
    exact h.kept (.arbitrate (.trans .of_eq (.lane (LaneFrame.laneCommandOk _ _))))
      fun hr => hP.arbitrate (hP.laneCommandOk (hP.sameTables hr))
  | censusOpened =>
    exact h.kept (.arbitrate (.censusNext (.of_eq (by rw [State.reportOpportunity_census]; rfl))))
      fun hr => hP.arbitrate (hP.censusNext (hP.report (hP.sameTables hr)))
  | descriptorStored =>
    refine h.kept (.arbitrate fun hs => ?_) fun hr => hP.arbitrate (hP.sameTables hr)
    dsimp only
    rw [hs]
    rfl
  | descriptorRefused =>
    exact h.kept (.arbitrate (.censusNext (.of_eq (State.cardOffline_frame _ _).census)))
      fun hr => hP.arbitrate (hP.censusNext (hP.cardOffline (hP.sameTables hr)))
  | censusTimeout =>
    exact h.kept (.arbitrate (.censusNext .of_eq)) fun hr => hP.arbitrate (hP.censusNext (hP.sameTables hr))
  | resend => exact h.kept .of_eq id
  | failure _ => exact h.kept (.failInFlight _ _ _) hP.failInFlight

/-- Settles O56, by two inductions over the effects: one for the lanes, one for the census. -/
theorem everyStepKeepsLanesQuiet : Obligations.EveryStepKeepsLanesQuiet := by
  constructor
  · intro s t hcanonical hquiet hclean hstep
    have hkept := quiet_holdKept.step hstep ⟨hcanonical, hquiet, hclean⟩
    exact ⟨hkept.quiet, hkept.clean⟩
  · intro s t hs hstep
    refine step_keeps (P := State.censusQuiet) (fun u v hc hu => ?_) (fun u v he hu => censusQuiet_effect he hu) hstep hs
    exact hu.kept (.of_eq hc.census) fun hr => by rwa [hc.state]

end Sys2Proof.Machine
end

section
/-! CERTIFICATE. While the link is free nobody waits for it (R159): every event that places a request or frees the link ends in
an arbitration, and an arbitration leaves the link busy or nobody waiting. -/

namespace Sys2Proof.Machine

/-! ## What a lane holds after another lane's event -/

theorem State.heldNails_eq (s : State) (l : LaneNo) :
    s.heldNails l = (((s.laneAt l).heldSlot.bind fun k => s.recordAt k).map (fun r => r.program.nails.entries)).getD [] := by
  unfold State.heldNails State.heldBy
  cases (s.laneAt l).heldSlot with
  | none => rfl
  | some k => simp only [Option.bind_some]; cases s.recordAt k <;> rfl

theorem State.heldNails_of_programs {s t : State} {m : LaneNo} (hl : (t.laneAt m).heldSlot = (s.laneAt m).heldSlot)
    (hr : ∀ k, (s.laneAt m).heldSlot = some k →
      (t.recordAt k).map StepRecord.program = (s.recordAt k).map StepRecord.program) :
    t.heldNails m = s.heldNails m := by
  have hmap (r : Option StepRecord) :
      r.map (fun r => r.program.nails.entries) = (r.map StepRecord.program).map (fun p => p.nails.entries) := by
    cases r <;> rfl
  rw [State.heldNails_eq, State.heldNails_eq, hl]
  cases hk : (s.laneAt m).heldSlot with
  | none => rfl
  | some k => rw [Option.bind_some, Option.bind_some, hmap, hmap, hr k hk]

theorem Touched.programs {l : LaneNo} {s t : State} (h : Touched l s t) (k : Slot) :
    (t.recordAt k).map StepRecord.program = (s.recordAt k).map StepRecord.program := by
  have hmap (r : Option StepRecord) :
      r.map StepRecord.program = (r.map (fun r => (r.program, r.status))).map Prod.fst := by cases r <;> rfl
  rw [hmap, hmap, h.records k]

theorem Touched.heldNails {l : LaneNo} {s t : State} (h : Touched l s t) (m : LaneNo) : t.heldNails m = s.heldNails m := by
  refine State.heldNails_of_programs ?_ fun k _ => h.programs k
  by_cases hm : m = l
  · rw [hm, h.slot]
  · rw [h.other hm]

theorem State.recordAt_resolve_other (s : State) {k j : Slot} (h : j ≠ k) : (s.resolve k).recordAt j = s.recordAt j := by
  by_cases hheld : ∀ r, s.recordAt k = some r → r.status.isHeld = false
  · rw [State.resolve_of_not_held hheld]
  · push Not at hheld
    obtain ⟨r, hr, hstatus⟩ := hheld
    cases hst : r.status with
    | held p d q => unfold State.recordAt; rw [State.slotAt_resolve hr hst, if_neg h]
    | ready | parked _ => simp [hst, StepStatus.isHeld] at hstatus

theorem State.recordAt_endRelease_other {s : State} {l : LaneNo} {j : Slot} (h : (s.laneAt l).heldSlot ≠ some j) :
    (s.endRelease l).recordAt j = s.recordAt j := by
  rw [State.recordAt_congr (s.endRelease_steps l)]
  unfold State.releasedTables
  split
  · rfl
  · rename_i k hk
    rw [State.recordAt_resolve_other _ fun heq => h (by rw [hk, heq])]
    rfl

/-- A lane's event leaves what another busy lane holds. -/
theorem LaneWork.heldNails_other {l m : LaneNo} {s t : State} (h : LaneWork l s t) (hs : Matched s)
    (hl : (s.laneAt l).phase ≠ .idle) (hm : (s.laneAt m).phase ≠ .idle) (hne : m ≠ l) : t.heldNails m = s.heldNails m := by
  cases h with
  | tuned h => exact h.touched.heldNails m
  | @ended u _ h hu heq =>
    rw [heq, ← h.heldNails m]
    refine State.heldNails_of_programs (by rw [State.laneAt_endRelease_other _ hne]) fun k hk => ?_
    rw [State.recordAt_endRelease_other]
    rw [h.slot, ← hk, h.other hne]
    exact fun heq => hne (hs.own l m hl hm heq).symm

/-! ## Requests that a grant would serve -/

/-- The command of a lane's request goes to an ONLINE card. -/
def State.commandOnline (s : State) (l : LaneNo) : Prop :=
  ∃ c, s.laneCommand l = some c ∧ (s.cardAt c.card).state = .online

/-- A lane that waits in vain: its grant would fail its command (R160). -/
def State.doomed (s : State) (l : LaneNo) : Prop := (s.laneAt l).linkRequest = .waiting ∧ ¬ s.commandOnline l

theorem State.laneCommand_eq {s t : State} {m : LaneNo} (hl : t.laneAt m = s.laneAt m) (hh : t.heldNails m = s.heldNails m) :
    t.laneCommand m = s.laneCommand m := by
  unfold State.laneCommand
  rw [hl, hh]

theorem State.doomed_eq {s t : State} {m : LaneNo} (hl : t.laneAt m = s.laneAt m) (hh : t.heldNails m = s.heldNails m)
    (hc : t.cards = s.cards) (h : t.doomed m) : s.doomed m := by
  unfold State.doomed State.commandOnline at *
  simpa only [hl, State.laneCommand_eq hl hh, State.cardAt_congr hc] using h

theorem State.openSequence_settled {s : State} {l : LaneNo} (n : Nat) (hp : (s.laneAt l).phase = .releasing)
    (hr : (s.laneAt l).linkRequest = .none) : ¬ (State.openSequence l n s).doomed l := by
  rintro ⟨hwaiting, hoffline⟩
  rcases State.openSequence_cases l n s with heq | ⟨m, bus, nail, -, hnail, honline, heq⟩ <;> rw [heq] at hwaiting hoffline
  · rcases s.startReleaseWait_cases l with heq | ⟨wait, -, -, heq⟩ <;> rw [heq] at hwaiting
    · rw [State.laneAt_endRelease] at hwaiting; cases hwaiting
    · rw [State.laneAt_setLane_self] at hwaiting
      cases hr.symm.trans hwaiting
  · have hcard : (s.cardAt (cardOf nail)).state = .online := by simpa [State.nailOnline] using honline
    refine hoffline ⟨.openOne (cardOf nail) (crosspointOf nail) l bus, ?_, hcard⟩
    have hheld : (s.setLane l { s.laneAt l with openPosition := m + 1, linkRequest := .waiting }).heldNails l
        = s.heldNails l := Touched.heldNails (l := l) (.setLane s (by rfl)) l
    unfold State.laneCommand
    rw [hheld, State.laneAt_setLane_self]
    simp [hp, hnail]

theorem State.laneCommandFailed_settled (s : State) (l : LaneNo) : ¬ (s.laneCommandFailed l).doomed l := by
  have hopen : (s.laneAt l).phase = .releasing → ¬ (s.openCompleted l).doomed l := fun hp =>
    State.openSequence_settled _ (by rw [State.laneAt_setLane_self]; exact hp) (by rw [State.laneAt_setLane_self])
  unfold State.laneCommandFailed
  dsimp only
  split
  · unfold State.enterReleasing
    exact State.openSequence_settled _ (by rw [State.laneAt_setLane_self]) (by rw [State.laneAt_setLane_self])
  · rename_i hp; exact hopen hp
  · rintro ⟨hwaiting, -⟩
    rw [State.laneAt_setLane_self] at hwaiting
    cases hwaiting

/-! ## Arbitrations -/

open Classical in
/-- The lanes that wait in vain. -/
noncomputable def State.doomedLanes (s : State) : Finset LaneNo := Finset.univ.filter fun l => s.doomed l

theorem State.mem_doomedLanes (s : State) (l : LaneNo) : l ∈ s.doomedLanes ↔ s.doomed l := by
  simp [State.doomedLanes]

theorem State.doomedLanes_card_lt {s t : State} {l : LaneNo} (hl : s.doomed l) (hl' : ¬ t.doomed l)
    (hother : ∀ m, m ≠ l → t.doomed m → s.doomed m) : t.doomedLanes.card < s.doomedLanes.card := by
  refine Finset.card_lt_card (Finset.ssubset_iff_subset_ne.mpr ⟨fun m hm => ?_, fun heq => ?_⟩)
  · rw [State.mem_doomedLanes] at hm ⊢
    exact hother m (fun hml => hl' (hml ▸ hm)) hm
  · rw [← State.mem_doomedLanes, ← heq, State.mem_doomedLanes] at hl
    exact hl' hl

theorem State.linkServed_of_busy {s : State} {f : InFlight} (h : s.link.inFlight = some f) : s.linkServed := fun hnone => by
  rw [h] at hnone; cases hnone

/-- A failed grant leaves one lane fewer waiting in vain. -/
theorem State.doomedLanes_laneCommandFailed {s : State} {l : LaneNo} (hs : Matched s) (hl : s.doomed l) :
    (s.laneCommandFailed l).doomedLanes.card < s.doomedLanes.card := by
  have hbusy {m : LaneNo} (h : (s.laneAt m).linkRequest = .waiting) : (s.laneAt m).phase ≠ .idle := by
    intro hidle
    rw [hs.clean m hidle] at h
    cases h
  refine State.doomedLanes_card_lt hl (s.laneCommandFailed_settled l) fun m hm hdoomed => ?_
  have hframe := LaneFrame.laneCommandFailed l s
  have hlane := hframe.lanes m hm
  have hwaiting : (s.laneAt m).linkRequest = .waiting := hlane ▸ hdoomed.1
  have hwork := LaneWork.laneCommandFailed (hbusy hl.1)
  exact State.doomed_eq hlane (hwork.heldNails_other hs (hbusy hl.1) (hbusy hwaiting) hm) hframe.cards hdoomed

theorem State.grantFrom_served (fuel : Nat) (last : Fin 5) {s : State} (hcanonical : s.canonical = true) (hs : Matched s)
    (hfuel : s.doomedLanes.card < fuel) : (State.grantFrom fuel last s).linkServed := by
  induction fuel generalizing last s with
  | zero => omega
  | succ fuel ih =>
    unfold State.grantFrom
    split
    · rename_i hflight
      obtain ⟨f, hf⟩ := Option.isSome_iff_exists.mp hflight
      exact State.linkServed_of_busy hf
    split
    · rename_i hnone
      exact fun _ => (State.nextWaiting_eq_none s last).mp hnone
    rename_i r hr
    obtain ⟨hwaits, -⟩ := State.nextWaiting_eq_some hr
    have hfailed {m : LaneNo} (hdoomed : s.doomed m) :
        (State.grantFrom fuel r
          (({ s with link := { s.link with lastGranted := r } } : State).laneCommandFailed m)).linkServed := by
      have hpre := matched_holdKept.sameTables
        (t := { s with link := { s.link with lastGranted := r } }) ⟨hcanonical, hs⟩
      have hpost := matched_holdKept.laneCommandFailed (l := m) hpre
      have hless : (({ s with link := { s.link with lastGranted := r } } : State).laneCommandFailed m).doomedLanes.card
          < s.doomedLanes.card := State.doomedLanes_laneCommandFailed hpre.2 hdoomed
      exact ih _ hpost.1 hpost.2 (by omega)
    split
    · rename_i hrank
      rw [(laneOfRank_eq_none r).mp hrank] at hwaits
      split
      · rename_i hcensus
        have hno : s.waits 4 = false := by simp [State.waits, hcensus, laneOfRank]
        rw [hno] at hwaits; cases hwaits
      · exact State.linkServed_of_busy rfl
    · rename_i l hrank
      rw [(laneOfRank_eq_some r l).mp hrank, State.waits_lane, decide_eq_true_eq] at hwaits
      split
      · rename_i c hc
        split
        · exact State.linkServed_of_busy rfl
        · rename_i hoffline
          refine hfailed ⟨hwaits, ?_⟩
          rintro ⟨c', hc', honline⟩
          rw [hc] at hc'
          cases hc'
          exact hoffline honline
      · rename_i hc
        exact hfailed ⟨hwaits, fun ⟨c', hc', _⟩ => by rw [hc] at hc'; cases hc'⟩

theorem State.doomedLanes_card_le (s : State) : s.doomedLanes.card ≤ 4 :=
  (Finset.card_le_univ _).trans (by simp)

theorem State.arbitrate_served {s : State} (h : s.canonical = true ∧ Matched s) : s.arbitrate.linkServed :=
  State.grantFrom_served 5 _ h.1 h.2 (by have := s.doomedLanes_card_le; omega)

theorem State.startCensus_served {s : State} (first : CardNo) (others : List CardNo) (h : s.canonical = true ∧ Matched s) :
    (s.startCensus first others).linkServed := by
  rw [State.startCensus_eq]
  exact State.arbitrate_served (matched_holdKept.censusEntered _ h)

theorem State.abandonAll_served {s : State} (h : s.canonical = true ∧ Matched s) : s.abandonAll.linkServed := by
  have hordered : (allLanes.foldl (fun t l => t.endLaneWith l .aborted) s).canonical = true
      ∧ Matched (allLanes.foldl (fun t l => t.endLaneWith l .aborted) s) :=
    List.foldlRecOn (motive := fun t : State => t.canonical = true ∧ Matched t) allLanes _ h
        fun t ht l _ => matched_holdKept.endLaneWith _ ht
  unfold State.abandonAll
  dsimp only
  split
  · have hdrawn := matched_holdKept.sameTables (t := { allLanes.foldl (fun t l => t.endLaneWith l .aborted) s with
      freeDraws := s.freeDraws + 1 }) hordered
    exact State.grantFrom_served 5 _ hdrawn.1 hdrawn.2 (by have := State.doomedLanes_card_le; exact (this _).trans_lt (by omega))
  · exact State.arbitrate_served hordered

/-! ## Effects without an arbitration -/

/-- No request is placed, and the link is not freed. -/
def NothingPlaced (s t : State) : Prop :=
  t.link.inFlight = s.link.inFlight ∧ t.census = s.census
    ∧ ∀ l, (t.laneAt l).linkRequest = .waiting → (s.laneAt l).linkRequest = .waiting

theorem NothingPlaced.served {s t : State} (h : NothingPlaced s t) (hs : s.linkServed) : t.linkServed := by
  obtain ⟨hflight, hcensus, hlanes⟩ := h
  intro hfree r
  have hnobody := hs (hflight.symm.trans hfree) r
  unfold State.waits at *
  split at hnobody
  · rename_i l hrank
    simp only [decide_eq_false_iff_not] at hnobody ⊢
    exact fun hw => hnobody (hlanes l hw)
  · simpa only [hcensus] using hnobody

theorem NothingPlaced.of_links {s t : State} (h : SameLinks s t) : NothingPlaced s t :=
  ⟨by rw [h.link], h.census, fun l => by rw [State.laneAt_congr h.lanes]; exact id⟩

theorem NothingPlaced.of_lane {l : LaneNo} {s t : State} (h : LaneFrame l s t)
    (hl : (t.laneAt l).linkRequest = .waiting → (s.laneAt l).linkRequest = .waiting) : NothingPlaced s t := by
  refine ⟨by rw [h.link], h.census, fun m => ?_⟩
  by_cases hm : m = l
  · rw [hm]; exact hl
  · rw [h.lanes m hm]; exact id

theorem State.linkRequest_startSettle (s : State) (l : LaneNo) (aperture : BitVec 16) (settle : Nat × Bool) :
    ((s.startSettle l aperture settle).laneAt l).linkRequest = (s.laneAt l).linkRequest := by
  have hlane : (s.writeClamped l settle.2).laneAt l = s.laneAt l := by unfold State.writeClamped; split <;> rfl
  unfold State.startSettle
  dsimp only
  split
  · unfold State.sendStart
    dsimp only
    rw [State.laneAt_setLane_self, State.laneAt_setLane_self, hlane]
  · rw [State.laneAt_setLane_self, hlane]

theorem linkServed_effect {s t : State} (he : Effect s t) (hs : s.canonical = true ∧ Matched s) (h : s.linkServed) :
    t.linkServed := by
  have hP := matched_holdKept
  have links {u v : State} (hl : SameLinks u v) (hu : u.linkServed) : v.linkServed := (NothingPlaced.of_links hl).served hu
  induction he with
  | same hc =>
    exact NothingPlaced.served ⟨by rw [hc.link], hc.census, fun l => by rw [State.laneAt_congr hc.lanes]; exact id⟩ h
  | report _ ih => exact links (.report _) ih
  | test _ ih => exact links (.testRunEnd _) ih
  | store _ _ => exact links (.storeStep _ _ _) h
  | restatus _ _ _ => exact links (.setRecord _ _ _) h
  | edit _ _ _ => exact links (.applyEdit _ _ _ _) h
  | free _ _ => exact links (.freeSlot _ _ _) h
  | retireNail => exact links (.retireNail _ _) h
  | restoreNail => exact links (.restoreNail _ _) h
  | markCommon => exact links ⟨rfl, rfl, rfl, rfl, rfl⟩ h
  | startCensus _ => exact State.startCensus_served _ _ hs
  | startRun _ _ => exact links (.startRun _ _ _ _) h
  | enterRunning _ => exact links (.enterRunning _) h
  | abortArmed _ => exact links ⟨rfl, rfl, rfl, rfl, rfl⟩ h
  | drain _ => exact links ⟨rfl, rfl, rfl, rfl, rfl⟩ h
  | force _ => exact links (.testRunEnd _) (State.abandonAll_served hs)
  | forceRun _ => exact links (.testRunEnd _) (State.abandonAll_served (hP.rerun hs (.inr (.inl rfl))))
  | softReset => exact State.startCensus_served _ _ (hP.cleared hs)
  | hardReset => exact State.linkServed_of_busy rfl
  | skip _ => exact links ((SameLinks.recordVerdict _ _ _).trans (.testRunEnd _)) h
  | dispatch hrun hd =>
    obtain ⟨hidle, r, hr, hready⟩ := State.ready_of_dispatch hs.1 hd
    rw [State.dispatch_eq hr]
    exact State.arbitrate_served (hP.dispatched hrun hidle hr hready hs)
  | sendStart _ =>
    refine (NothingPlaced.of_lane (LaneFrame.sendStart _ _ _) ?_).served h
    unfold State.sendStart
    dsimp only
    rw [State.laneAt_setLane_self]
    exact id
  | verdict hl =>
    exact State.arbitrate_served (hP.work (.enterReleasing (.clearOutstanding _ _) _) (hP.busy hs hl) hs)
  | @retry l r _ =>
    refine (NothingPlaced.of_lane (l := l) ?_ ?_).served h
    · exact (LaneFrame.clearOutstanding l _).trans (LaneFrame.retryLane l _ r)
    · unfold State.retryLane
      dsimp only
      rw [State.linkRequest_startSettle, State.laneAt_setSummary, State.laneAt_setLane_self]
      exact id
  | @endRelease l _ _ =>
    refine (NothingPlaced.of_lane (LaneFrame.endRelease l _) fun hw => ?_).served h
    rw [State.laneAt_endRelease] at hw
    cases hw
  | laneOk => exact State.arbitrate_served (hP.laneCommandOk (hP.sameTables hs))
  | censusOpened => exact State.arbitrate_served (hP.censusNext (hP.report (hP.sameTables hs)))
  | descriptorStored => exact State.arbitrate_served (hP.sameTables hs)
  | descriptorRefused => exact State.arbitrate_served (hP.censusNext (hP.cardOffline _ (hP.sameTables hs)))
  | censusTimeout => exact State.arbitrate_served (hP.censusNext (hP.sameTables hs))
  | resend => exact State.linkServed_of_busy rfl
  | failure _ =>
    unfold State.failInFlight
    exact State.arbitrate_served (hP.sameTables (hP.commandFailed _ (hP.cardOffline _ (hP.flagged _ _ hs))))

/-- Settles O57: the pending ends are a property of what the lanes hold, and the link is served because every event that
places a request or frees the link ends in an arbitration. -/
theorem everyStepKeepsLinkServed : Obligations.EveryStepKeepsLinkServed := by
  intro s t hcanonical hmatches hstep
  refine ⟨fun hserved => ?_, pendingEndsSound_step hcanonical hmatches hstep⟩
  have hcore (u v : State) (hc : SameCore u v)
      (hu : (u.canonical = true ∧ Matched u) ∧ u.linkServed) : (v.canonical = true ∧ Matched v) ∧ v.linkServed :=
    ⟨matched_holdKept.core hc hu.1, linkServed_effect (.same hc) hu.1 hu.2⟩
  have heffect (u v : State) (he : Effect u v)
      (hu : (u.canonical = true ∧ Matched u) ∧ u.linkServed) : (v.canonical = true ∧ Matched v) ∧ v.linkServed :=
    ⟨matched_holdKept.effect he hu.1, linkServed_effect he hu.1 hu.2⟩
  exact (step_keeps hcore heffect hstep ⟨⟨hcanonical, (matched_iff s).mpr hmatches⟩, hserved⟩).2

end Sys2Proof.Machine
end

section
/-! CERTIFICATE. Whenever a step closes a run, every lane is IDLE, the not-run count is that of the records as they stand, and
RUN_DONE is latched (R76, R77, R78, R83). -/

namespace Sys2Proof.Machine

/-! ## Closed runs -/

/-- The run is over: DONE or ABORTED. -/
def State.over (s : State) : Prop := s.run.state = .done ∨ s.run.state = .aborted

/-- A run that is over was closed with its count. -/
def State.closedWell (s : State) : Prop :=
  s.over → s.allLanesIdle = true ∧ s.run.summary.notRun = some s.notRunCount ∧ s.latches.runDone = true
    ∧ (s.run.state = .done → s.candidates = [])

theorem State.closedWell_of_open {s : State} (h : ¬ s.over) : s.closedWell := fun hover => absurd hover h

theorem State.not_over_of_eq {s t : State} (hs : ¬ s.over) (h : t.run.state = s.run.state) : ¬ t.over := by
  unfold State.over at *
  rwa [h]

theorem State.not_over_of_busy {s : State} (hs : s.closedWell) {l : LaneNo} (hl : (s.laneAt l).phase ≠ .idle) : ¬ s.over :=
  fun hover => hl ((s.allLanesIdle_iff.mp (hs hover).1) l)

theorem State.closedWell_same {s t : State} (hs : s.closedWell) (hidle : s.allLanesIdle = true → t.allLanesIdle = true)
    (hsteps : t.steps = s.steps) (hrun : t.run = s.run) (hdone : s.latches.runDone = true → t.latches.runDone = true) :
    t.closedWell := by
  intro hover
  have hover' : s.over := by unfold State.over at *; rwa [hrun] at hover
  obtain ⟨hlanes, hcount, hlatch, hcandidates⟩ := hs hover'
  refine ⟨hidle hlanes, ?_, hdone hlatch, fun hstate => ?_⟩
  · rw [State.notRunCount_congr hsteps (by rw [hrun]), hrun, hcount]
  · rw [State.candidates_congr hsteps (by rw [hrun])]
    exact hcandidates (by rw [← hrun]; exact hstate)

theorem State.closedWell_closeRun {s : State} (final : RunState) (hidle : s.allLanesIdle = true)
    (hfinal : final = .done → s.candidates = []) : (s.closeRun final).closedWell :=
  fun _ => ⟨hidle, rfl, rfl, hfinal⟩

theorem State.closedWell_testRunEnd {s : State} (h : s.closedWell) : s.testRunEnd.closedWell := by
  unfold State.testRunEnd
  split
  · rename_i hend; exact State.closedWell_closeRun _ hend.2.1 fun _ => hend.2.2
  split
  · rename_i hend; exact State.closedWell_closeRun _ hend.2 nofun
  · exact h

theorem State.closedWell_endRelease {s : State} (h : ¬ s.over) (l : LaneNo) : (s.endRelease l).closedWell := by
  rw [State.endRelease_eq]
  refine State.closedWell_testRunEnd (State.closedWell_of_open (State.not_over_of_eq h ?_))
  rw [State.reportOpportunity_run, State.setLane_run, State.releasedTables_run]

/-- Work at a lane of a run that is not over. -/
theorem LaneWork.closedWell {l : LaneNo} {s t : State} (h : LaneWork l s t) (hs : ¬ s.over) : t.closedWell := by
  cases h with
  | tuned h => exact State.closedWell_of_open (State.not_over_of_eq hs h.touched.state)
  | ended h _ heq => rw [heq]; exact State.closedWell_endRelease (State.not_over_of_eq hs h.state) l

theorem closedWell_laneKept : LaneKept State.closedWell where
  same h hs := State.closedWell_same hs (by rw [State.allLanesIdle_congr h.lanes]; exact id) h.steps h.run h.done
  resting {s l} hidle hs := by
    refine State.closedWell_same hs (fun hlanes => ?_) rfl rfl id
    rw [State.allLanesIdle_iff] at hlanes ⊢
    intro m
    rw [State.laneAt_setLane]
    split
    · exact hidle
    · exact hlanes m
  tuned h hl hs := LaneWork.closedWell (.tuned h) (State.not_over_of_busy hs hl)
  ended h hu hl hs := LaneWork.closedWell (.ended h hu rfl) (State.not_over_of_busy hs hl)

/-! ## Every effect -/

theorem State.storeStep_state (s : State) (k : Slot) (p : StepProgram) : (s.storeStep k p).run.state = s.run.state := by
  unfold State.storeStep
  dsimp only
  split
  · rw [State.reportOpportunity_run, State.raiseRefs_frame]; rfl
  · rw [State.raiseRefs_frame]; rfl

theorem State.applyEdit_state (s : State) (k : Slot) (r : StepRecord) (e : StepEdit) :
    (s.applyEdit k r e).run.state = s.run.state := by
  unfold State.applyEdit
  split
  · rfl
  · rw [State.moveRefs_frame]; rfl

theorem State.freeSlot_state (s : State) (k : Slot) (r : StepRecord) : (s.freeSlot k r).run.state = s.run.state := by
  unfold State.freeSlot
  rw [State.lowerRefs_frame]; rfl

theorem State.restoreNail_state (s : State) (n : NailNo) : (s.restoreNail n).run.state = s.run.state := by
  unfold State.restoreNail
  dsimp only
  rw [State.reportOpportunity_run]
  split <;> rfl

theorem State.closedWell_enterRunning (s : State) : s.enterRunning.closedWell := by
  refine State.closedWell_testRunEnd (State.closedWell_of_open ?_)
  unfold State.over
  rw [State.reportOpportunity_run]
  rintro (h | h) <;> cases h

theorem State.closedWell_startRun (s : State) (mode : RunMode) (reverse : Bool) (weight : Fin 4) :
    (s.startRun mode reverse weight).closedWell := by
  unfold State.startRun
  dsimp only
  split
  · exact State.closedWell_enterRunning _
  · exact State.closedWell_of_open (by rintro (h | h) <;> cases h)

theorem closedWell_effect {s t : State} (he : Effect s t) (hquiet : s.lanesQuiet) (hs : ¬ s.over) : t.closedWell := by
  have hP := closedWell_laneKept
  have hopen := State.closedWell_of_open hs
  have same {u : State} (h : u.run.state = s.run.state) : u.closedWell :=
    State.closedWell_of_open (State.not_over_of_eq hs h)
  have draining (r : AbortReason) : (s.drain r).closedWell :=
    State.closedWell_of_open (by rintro (h | h) <;> cases h)
  induction he with
  | same hc => exact same hc.state
  | report _ ih => exact hP.report ih
  | test _ ih => exact State.closedWell_testRunEnd ih
  | store _ _ => exact same (State.storeStep_state _ _ _)
  | restatus _ _ _ => exact same rfl
  | edit _ _ _ => exact same (State.applyEdit_state _ _ _ _)
  | free _ _ => exact same (State.freeSlot_state _ _ _)
  | retireNail => exact State.closedWell_testRunEnd (same rfl)
  | restoreNail => exact same (State.restoreNail_state _ _)
  | markCommon => exact same rfl
  | startCensus _ => exact hP.startCensus _ _ hopen
  | startRun _ _ => exact State.closedWell_startRun _ _ _ _
  | enterRunning _ => exact State.closedWell_enterRunning _
  | abortArmed harmed =>
    refine State.closedWell_closeRun .aborted ?_ nofun
    exact (State.allLanesIdle_iff _).mpr (hquiet (by rw [harmed]; nofun) (by rw [harmed]; nofun))
  | drain _ => exact draining _
  | force _ => exact State.closedWell_testRunEnd (hP.abandonAll hopen)
  | forceRun _ => exact State.closedWell_testRunEnd (hP.abandonAll (draining _))
  | softReset => exact hP.startCensus _ _ (State.closedWell_of_open (by rintro (h | h) <;> cases h))
  | hardReset => exact State.closedWell_of_open (by rintro (h | h) <;> cases h)
  | skip _ => exact State.closedWell_testRunEnd (same (Touched.recordVerdict 0 _ _ _).state)
  | @dispatch k l _ _ =>
    cases hr : s.recordAt k with
    | none => unfold State.dispatch; rw [hr]; exact hopen
    | some r =>
      rw [State.dispatch_eq hr]
      refine hP.arbitrate (same ?_)
      unfold State.dispatched
      rw [State.bindNails_frame]
      rfl
  | sendStart _ => exact same rfl
  | verdict _ => exact hP.arbitrate (LaneWork.closedWell (.enterReleasing (.clearOutstanding _ _) _) hs)
  | retry hl => exact LaneWork.closedWell (.retryLane _ _ hl) hs
  | endRelease _ => exact State.closedWell_endRelease hs _
  | laneOk => exact hP.arbitrate (hP.laneCommandOk (hP.sameTables hopen))
  | censusOpened => exact hP.arbitrate (hP.censusNext (hP.report (hP.sameTables hopen)))
  | descriptorStored => exact hP.arbitrate (hP.sameTables hopen)
  | descriptorRefused => exact hP.arbitrate (hP.censusNext (hP.cardOffline _ (hP.sameTables hopen)))
  | censusTimeout => exact hP.arbitrate (hP.censusNext (hP.sameTables hopen))
  | resend => exact same rfl
  | failure _ => exact hP.failInFlight _ _ hopen

/-- Settles O50: a run is closed by the test of its end, or, while ARMED, with every lane IDLE. -/
theorem runClosesWithItsCount : Obligations.RunClosesWithItsCount := by
  refine ⟨fun s => ⟨s.allLanesIdle_iff, rfl⟩, fun s t hquiet hdone haborted hstep hover => ?_⟩
  obtain ⟨s', u, hpre, heffect, port, transfer, shiftedOut, pending, rfl⟩ := step_moves hstep
  have hquiet' : s'.lanesQuiet := fun hrun hdrain l => by
    rw [State.laneAt_congr hpre.lanes]
    exact hquiet (hpre.state ▸ hrun) (hpre.state ▸ hdrain) l
  have hopen : ¬ s'.over := State.not_over_of_eq (s := s) (by rintro (h | h) <;> contradiction) hpre.state
  have hclosed : u.closedWell := closedWell_effect heffect hquiet' hopen
  exact hclosed hover

end Sys2Proof.Machine
end

section
/-! CERTIFICATE. The queue and the events that find nothing to act on, the values of the reset, the wires of the port, and the
events of one act: settle expiry, first parity, elapsed tick. -/

namespace Sys2Proof.Machine

/-! ## The queue -/

/-- Settles O1. -/
theorem stepRunsFrontCommand : Obligations.StepRunsFrontCommand := by
  intro s c rest h
  unfold step
  rw [h]

/-! ## Events with nothing to act on -/

theorem execSettleExpiry_of_no_settle {s : State} {l : LaneNo} (h : ∀ m, (s.laneAt l).timer ≠ some (.settle m)) :
    execSettleExpiry l s = .next s := by
  unfold execSettleExpiry
  split
  · rename_i m hm; exact absurd hm (h m)
  · rfl

theorem execConverterTimeout_of_no_timeout {s : State} {l : LaneNo}
    (h : ∀ m, (s.laneAt l).timer ≠ some (.converterTimeout m)) : execConverterTimeout l s = .next s := by
  unfold execConverterTimeout
  split
  · rename_i m hm; exact absurd hm (h m)
  · rfl

theorem execReleaseWaitExpiry_of_no_wait {s : State} {l : LaneNo}
    (h : ∀ m, (s.laneAt l).timer ≠ some (.releaseWait m)) : execReleaseWaitExpiry l s = .next s := by
  unfold execReleaseWaitExpiry
  split
  · rename_i m hm; exact absurd hm (h m)
  · rfl

theorem execAckTimeout_of_identify {s : State} (h : ∀ f, s.link.inFlight = some f → f.command.isIdentify = true) :
    execAckTimeout s = .next s := by
  unfold execAckTimeout
  split
  · rfl
  · rename_i f hf; rw [if_pos (h f hf)]

theorem execCensusTimeout_of_command {s : State} (h : ∀ f, s.link.inFlight = some f → f.command.isIdentify = false) :
    execCensusTimeout s = .next s := by
  unfold execCensusTimeout
  split
  · rfl
  · rename_i f hf; rw [if_neg (by rw [h f hf]; decide)]

theorem execStepScanVisit_of_no_scan {s : State} (h : ∀ q f k found, s.port ≠ .holding q (.scan f k found)) :
    execStepScanVisit s = .next s := by
  unfold execStepScanVisit
  split
  · rename_i q f k found hport; exact absurd hport (h q f k found)
  all_goals rfl

theorem execNailLookupVisit_of_no_lookup {s : State} (h : ∀ q n k found, s.port ≠ .holding q (.lookup n k found)) :
    execNailLookupVisit s = .next s := by
  unfold execNailLookupVisit
  split
  · rename_i q n k found hport; exact absurd hport (h q n k found)
  all_goals rfl

/-- Settles O2. -/
theorem nothingToActOnChangesNothing : Obligations.NothingToActOnChangesNothing := by
  intro s
  refine ⟨fun h => ?_, fun l => execSettleExpiry_of_no_settle, fun l => execConverterTimeout_of_no_timeout,
    fun l => execReleaseWaitExpiry_of_no_wait, execAckTimeout_of_identify, execCensusTimeout_of_command, fun h => ?_, ?_,
    fun h => ?_, execStepScanVisit_of_no_scan, execNailLookupVisit_of_no_lookup, fun hrun hdrain => ?_, fun h => ?_⟩
  · unfold step; rw [h]
  · show execFxcFilterExpiry s = .next s
    unfold execFxcFilterExpiry; rw [h]
  · exact if_pos rfl
  · show execExaminationStep s = .next s
    unfold execExaminationStep; rw [h]
  · exact if_neg (by rintro (h | h) <;> contradiction)
  · obtain ⟨x, hx⟩ := Option.ne_none_iff_exists'.mp h
    show execTransferBegin s = .next s
    unfold execTransferBegin; rw [hx]

/-! ## Reset -/

/-- Settles O3: each value is the one written in State.reset. -/
theorem resetLeavesSpecValues : Obligations.ResetLeavesSpecValues := by
  refine ⟨fun _ => rfl, fun _ => rfl, rfl, rfl, rfl, rfl, rfl, rfl, rfl, fun l => Vector.getElem_replicate l.isLt, rfl,
    fun l => ?_, fun c => Vector.getElem_replicate c.isLt, rfl, rfl, rfl, rfl, rfl, rfl, rfl, rfl, fun c => ?_, rfl⟩
  · have hport : State.reset.portAt l = ConverterPort.blank := Vector.getElem_replicate l.isLt
    rw [hport]
    exact ⟨rfl, rfl⟩
  · cases c <;> exact ⟨rfl, rfl⟩

/-- Settles O60: at State.reset the tables are empty, every lane is IDLE and a census is in progress. -/
theorem keptPropertiesHoldAtReset : Obligations.KeptPropertiesHoldAtReset := by
  have hblank (l : LaneNo) : State.reset.laneAt l = Lane.blank := Vector.getElem_replicate l.isLt
  have hidle (l : LaneNo) : (State.reset.laneAt l).phase = .idle := by rw [hblank]; rfl
  refine ⟨rfl, fun _ _ => hidle, fun l _ => ⟨hblank l, fun n => Vector.getElem_replicate l.isLt⟩,
    State.linkServed_of_busy rfl, fun l => by rw [hblank]; exact Lane.endSound_blank, fun _ => rfl, rfl, fun _ => rfl,
    (matched_iff _).mp (.of_blank hblank fun _ => rfl)⟩

/-! ## Transfers and wires -/

/-- Settles O9. -/
theorem transfersWithoutEffect : Obligations.TransfersWithoutEffect := by
  intro s
  refine ⟨fun x hx => ?_, State.startedIn_of_no_transfer, fun count hcount hstarted hshift => ?_, rfl, fun h => ?_⟩
  · unfold State.endingTransfer; rw [hx]; rfl
  · show Host.Outcome.next (collect count s) = _
    have hended : s.endTransfer count = { s with transfer := none, shiftedOut := List.replicate count 0 } := by
      unfold State.endTransfer Transfer.shifted
      rw [hshift]
      simp
    unfold collect
    rw [if_neg (by omega)]
    dsimp only
    split
    · rename_i hreplying _; exact absurd hreplying hstarted
    · rw [hended]
  · show execTransferBegin s = _
    unfold execTransferBegin
    rw [h]
    cases hport : s.port <;> rfl

theorem Conditions.has_add_eq (m : Conditions) (c d : Condition) : (m.add c).has d = (m.has d || decide (d = c)) := by
  rw [Conditions.has_add, Bool.or_comm]

/-- Settles O10, with the law of ATTN of an earlier part. -/
theorem attnFollowsEnabledLatches : Obligations.AttnFollowsEnabledLatches := by
  intro s
  refine ⟨s.attn_iff, ?_, ?_, fun c d => Conditions.has_add_eq _ c d, fun _ => rfl⟩
  · unfold State.readyLine
    cases s.port <;> simp [PortState.phase]
  · unfold State.replyLine
    cases s.port <;> simp [PortState.phase]

/-! ## Events of one act -/

theorem State.heldAperture_of_heldBy {s : State} {l : LaneNo} {k : Slot} {r : StepRecord} (h : s.heldBy l = some (k, r)) :
    s.heldAperture l = r.program.timing.aperture := by
  unfold State.heldAperture
  rw [h]
  rfl

/-- Settles O29. -/
theorem settleExpirySendsStart : Obligations.SettleExpirySendsStart := by
  intro s l m k r htimer hheld
  show execSettleExpiry l s = _
  unfold execSettleExpiry
  rw [htimer]
  dsimp only
  rw [State.heldAperture_of_heldBy hheld]
  rfl

/-- Settles O40. -/
theorem firstParityResendsCommand : Obligations.FirstParityResendsCommand := by
  intro s f hflight hresent
  show Host.Outcome.next (s.parityAnswered f.command.card) = _
  unfold State.parityAnswered
  rw [hflight]
  dsimp only
  rw [if_pos rfl, if_neg (by rw [hresent]; decide)]
  rfl

/-- Settles O49. -/
theorem elapsedCounterSaturates : Obligations.ElapsedCounterSaturates := by
  intro s hrun
  exact ⟨raiseSaturating s.run.summary.elapsed, raiseSaturating_toNat _, if_pos hrun⟩

end Sys2Proof.Machine
end

section
/-! CERTIFICATE. The request port: frames that are discarded or refused, what a refusal leaves, collections, and the requests on
latches and settings. -/

namespace Sys2Proof.Machine

/-! ## Requests and their owners -/

/-- A request that its owner answers at once. -/
theorem exec_of_reply {i : Instr} {code : Byte} {f : RequestFrame} {owner : List Byte → State → State × Answer} {s t : State}
    {st : Status} {body : List Byte} (hexec : exec i s = .next (takeRequest owner code f s)) (htakes : s.takes)
    (hlength : f.body.length ≤ 60) (howner : owner f.body (s.taken f) = (t, .reply st body)) :
    exec i s = .next (t.replied code f st body) := by
  rw [hexec, takeRequest_of_reply htakes hlength howner]

/-- The codes that have an owner are those of the catalogue. -/
theorem ownerOf_isSome (b : Byte) : (ownerOf b).isSome = true ↔ b ∈ catalogueCodes := by
  revert b
  decide

theorem mem_catalogueCodes (b : Byte) :
    b ∈ catalogueCodes ↔ b = 0x10 ∨ b = 0x11 ∨ b ∈ fixedLengths.map Prod.fst := by
  revert b
  decide

/-- Settles O5. -/
theorem overrunFramesAreDiscarded : Obligations.OverrunFramesAreDiscarded := by
  intro s hstarted
  refine ⟨fun i code f hi => ⟨?_, rfl⟩, fun b bytes hb => ?_⟩
  · obtain ⟨owner, -, hexec⟩ := requestOf_owner hi
    rw [hexec, takeRequest_of_overrun _ _ _ hstarted]
  · have hends : transferEnds (b :: bytes) s = (s.endTransfer (bytes.length + 1)).latch .requestOverrun := by
      unfold transferEnds
      dsimp only
      rw [if_neg hb, if_pos hstarted]
      rfl
    exact ⟨congrArg _ hends, congrArg _ hends, rfl⟩

/-! ## Malformed frames (R173) -/

theorem transferEnds_of_taken {s : State} {b : Byte} {bytes : List Byte} (htakes : s.takes) (hb : b ≠ 0) :
    transferEnds (b :: bytes) s = (s.endTransfer (b :: bytes).length).takeFrame (b :: bytes) := by
  unfold transferEnds
  dsimp only
  rw [if_neg hb, if_neg (not_not.mpr htakes)]

theorem frameChecks_badLength {bytes : List Byte} (known : Bool)
    (h : bytes.length < 4 ∨ 60 < (byteAt bytes 2).toNat ∨ bytes.length ≠ 4 + (byteAt bytes 2).toNat) :
    firstFailing (frameChecks bytes known) = some .badLength := by
  unfold frameChecks firstFailing firstFailing firstFailing
  split_ifs with hshort hlong hdeclared
  · rfl
  · rfl
  · rfl
  · simp only [decide_eq_true_eq] at hshort hlong hdeclared
    rcases h with h | h | h <;> contradiction

theorem frameChecks_badRequest {bytes : List Byte} (hshort : 4 ≤ bytes.length) (hlong : (byteAt bytes 2).toNat ≤ 60)
    (hdeclared : bytes.length = 4 + (byteAt bytes 2).toNat) : firstFailing (frameChecks bytes false) = some .badRequest := by
  unfold frameChecks firstFailing firstFailing firstFailing firstFailing
  rw [if_neg (by simpa using hshort), if_neg (by simpa using hlong), if_neg (by simpa using hdeclared)]
  rfl

theorem State.takeFrame_of_failing {s : State} {bytes : List Byte} {st : Status}
    (h : firstFailing (frameChecks bytes (ownerOf (byteAt bytes 0)).isSome) = some st) :
    s.takeFrame bytes = s.placeReply { code := byteAt bytes 0, tag := byteAt bytes 1, status := st, body := [] } := by
  unfold State.takeFrame
  dsimp only
  rw [h]

/-- A check of the length that comes first and fails. -/
theorem firstFailing_lengthCheck {body : List Byte} {n : Nat} (h : body.length ≠ n) (checks : List (Bool × Status)) :
    firstFailing (lengthCheck body n :: checks) = some .badLength := by
  unfold lengthCheck
  simp [firstFailing, h]

/-- An owner of a request of fixed length checks the length before anything else (R175). -/
theorem ownerOf_badLength {code : Byte} {owner : List Byte → State → State × Answer} {n : Nat} {body : List Byte}
    (howner : ownerOf code = some owner) (hlength : (code, n) ∈ fixedLengths) (h : body.length ≠ n) (s : State) :
    owner body s = (s, refuse .badLength) := by
  simp only [fixedLengths, List.mem_cons, List.not_mem_nil, or_false, Prod.mk.injEq] at hlength
  rcases hlength with h' | h' | h' | h' | h' | h' | h' | h' | h' | h' | h' | h' | h' | h' | h' | h' | h' | h' | h' | h' | h' <;>
    obtain ⟨rfl, rfl⟩ := h' <;> cases howner
  · exact if_pos h
  · exact if_pos h
  · exact if_pos h
  · exact if_pos h
  · exact if_pos h
  · exact if_pos h
  · exact if_pos h
  · exact if_pos h
  · exact if_pos h
  · exact if_pos h
  · exact if_pos h
  · unfold cardCensusOwner
    dsimp only
    simp only [List.cons_append, firstFailing_lengthCheck h]
  · unfold runStartOwner
    dsimp only
    simp only [List.cons_append, firstFailing_lengthCheck h]
  · unfold runAbortOwner
    rw [firstFailing_lengthCheck h]
  · exact if_pos h
  · unfold timebaseSetOwner
    simp only [List.cons_append, firstFailing_lengthCheck h]
  · unfold configSetOwner
    simp only [List.cons_append, firstFailing_lengthCheck h]
  · exact if_pos h
  · exact if_pos h
  · exact if_pos h
  · exact if_pos h

theorem exec_of_long {i : Instr} {code : Byte} {f : RequestFrame} (hi : requestOf i = some (code, f)) {s : State}
    (htakes : s.takes) (hlong : 60 < f.body.length) : exec i s = .next ((s.taken f).replied code f .badLength []) := by
  obtain ⟨owner, -, hexec⟩ := requestOf_owner hi
  rw [hexec, takeRequest_of_long _ _ _ htakes hlong]

/-- Settles O6. -/
theorem malformedFramesAreRefused : Obligations.MalformedFramesAreRefused := by
  refine ⟨fun s b bytes htakes hb => ⟨fun h => ?_, fun hshort hlong hdeclared hunknown => ?_, ?_⟩,
    fun s i code f htakes hi => exec_of_long hi htakes, fun s i code f n htakes hi hfixed hlength => ?_, mem_catalogueCodes⟩
  · show Host.Outcome.next (transferEnds (b :: bytes) s) = _
    rw [transferEnds_of_taken htakes hb, State.takeFrame_of_failing (frameChecks_badLength _ h)]
    rfl
  · have hnone : (ownerOf (byteAt (b :: bytes) 0)).isSome = false := by
      rw [← Bool.not_eq_true, ownerOf_isSome]
      exact hunknown
    show Host.Outcome.next (transferEnds (b :: bytes) s) = _
    rw [transferEnds_of_taken htakes hb,
      State.takeFrame_of_failing (st := .badRequest) (by rw [hnone]; exact frameChecks_badRequest hshort hlong hdeclared)]
    rfl
  · rintro rfl; rfl
  · by_cases hlong : 60 < f.body.length
    · exact exec_of_long hi htakes hlong
    · obtain ⟨owner, howner, hexec⟩ := requestOf_owner hi
      exact exec_of_reply (hexec s) htakes (by omega) (ownerOf_badLength howner hfixed hlength _)

/-! ## Refusals (section 9.5) -/

/-- A status that accepts a request. -/
def Status.accepts (st : Status) : Prop := st = .ok ∨ st = .deferred ∨ st = .started

/-- An answer that refuses leaves the state as the owner found it, and carries no body. -/
def RefusesCleanly (s : State) (out : State × Answer) : Prop :=
  ∀ st body, out.2 = .reply st body → ¬ st.accepts → out = (s, refuse st)

namespace RefusesCleanly

variable {s t : State}

theorem refusal (st : Status) : RefusesCleanly s (s, refuse st) := fun _ _ h _ => by cases h; rfl

theorem ok (b : List Byte) : RefusesCleanly s (t, .reply .ok b) := fun _ _ h hno => by cases h; exact absurd (.inl rfl) hno

theorem deferred (b : List Byte) : RefusesCleanly s (t, .reply .deferred b) := fun _ _ h hno => by
  cases h; exact absurd (.inr (.inl rfl)) hno

theorem started (b : List Byte) : RefusesCleanly s (t, .reply .started b) := fun _ _ h hno => by
  cases h; exact absurd (.inr (.inr rfl)) hno

theorem walking (w : Walk) : RefusesCleanly s (t, .walking w) := fun _ _ h => by cases h

end RefusesCleanly

open RefusesCleanly in
theorem stepWriteOwner_refuses (body : List Byte) (s : State) : RefusesCleanly s (stepWriteOwner body s) := by
  unfold stepWriteOwner
  dsimp only
  split
  · exact refusal _
  split
  · exact refusal _
  · exact ok _

open RefusesCleanly in
theorem stepEditOwner_refuses (body : List Byte) (s : State) : RefusesCleanly s (stepEditOwner body s) := by
  unfold stepEditOwner
  dsimp only
  split
  · exact refusal _
  split
  · exact refusal _
  split
  · exact refusal _
  split
  · exact deferred _
  · exact ok _
  · exact ok _

open RefusesCleanly in
theorem stepParkOwner_refuses (body : List Byte) (s : State) : RefusesCleanly s (stepParkOwner body s) := by
  unfold stepParkOwner
  split
  · exact refusal _
  split
  · exact refusal _
  split
  · exact deferred _
  · exact ok _
  · exact ok _

open RefusesCleanly in
theorem stepUnparkOwner_refuses (body : List Byte) (s : State) : RefusesCleanly s (stepUnparkOwner body s) := by
  unfold stepUnparkOwner
  split
  · exact refusal _
  split
  · exact refusal _
  split
  · exact ok _
  · exact ok _
  · split
    · exact ok _
    · exact refusal _

open RefusesCleanly in
theorem stepRetireOwner_refuses (body : List Byte) (s : State) : RefusesCleanly s (stepRetireOwner body s) := by
  unfold stepRetireOwner
  split
  · exact refusal _
  split
  · exact refusal _
  split
  · exact deferred _
  · exact ok _
  · exact ok _

open RefusesCleanly in
theorem nailCommonOwner_refuses (body : List Byte) (s : State) : RefusesCleanly s (nailCommonOwner body s) := by
  unfold nailCommonOwner
  split
  · exact refusal _
  split
  · exact refusal _
  split
  · unfold State.setCommon
    dsimp only
    split
    · exact ok _
    split
    · exact refusal _
    split
    · exact refusal _
    split
    · exact refusal _
    · exact ok _
  · unfold State.clearCommon
    dsimp only
    split
    · exact ok _
    split
    · exact refusal _
    · exact ok _

open RefusesCleanly in
/-- Every owner of the catalogue refuses without a change. -/
theorem ownerOf_refuses {code : Byte} {owner : List Byte → State → State × Answer} (h : ownerOf code = some owner)
    (body : List Byte) (s : State) : RefusesCleanly s (owner body s) := by
  unfold ownerOf at h
  split at h <;> cases h
  · exact stepWriteOwner_refuses body s
  · exact stepEditOwner_refuses body s
  · unfold stepReadOwner
    split
    · exact refusal _
    split
    · exact refusal _
    · exact ok _
  · exact stepParkOwner_refuses body s
  · exact stepUnparkOwner_refuses body s
  · exact stepRetireOwner_refuses body s
  · unfold stepScanOwner
    split
    · exact refusal _
    split
    · exact refusal _
    · exact walking _
  · unfold nailReadOwner
    split
    · exact refusal _
    split
    · exact refusal _
    · exact ok _
  · unfold nailLookupOwner
    split
    · exact refusal _
    split
    · exact refusal _
    split
    · exact refusal _
    · exact walking _
  · unfold nailRetireOwner
    split
    · exact refusal _
    split
    · exact refusal _
    split
    · exact ok _
    · exact ok _
  · unfold nailRestoreOwner
    split
    · exact refusal _
    split
    · exact refusal _
    split
    · exact ok _
    · exact ok _
  · exact nailCommonOwner_refuses body s
  · unfold cardReadOwner
    split
    · exact refusal _
    split
    · exact refusal _
    · exact ok _
  · unfold cardCensusOwner
    dsimp only
    split
    · exact refusal _
    split
    · exact refusal _
    · exact started _
  · unfold runStartOwner
    dsimp only
    split
    · exact refusal _
    split
    · exact refusal _
    · exact ok _
  · unfold runAbortOwner
    split
    · exact refusal _
    · exact ok _
  · unfold runSummaryOwner
    split
    · exact refusal _
    · exact ok _
  · unfold timebaseSetOwner
    split
    · exact refusal _
    · exact ok _
  · unfold configSetOwner
    split
    · exact refusal _
    · exact ok _
  · unfold configReadOwner
    split
    · exact refusal _
    · exact ok _
  · unfold statusOwner
    split
    · exact refusal _
    · exact ok _
  · unfold enableSetOwner
    split
    · exact refusal _
    · exact ok _
  · unfold softResetOwner
    split
    · exact refusal _
    · exact ok _

/-- Settles O7: a refusing owner answers from the state as it found it. -/
theorem refusalChangesOnlyThePort : Obligations.RefusalChangesOnlyThePort := by
  intro s t i code f q hi htakes hexec hport hok hdeferred hstarted
  have hno : ¬ q.status.accepts := by rintro (h | h | h) <;> contradiction
  obtain ⟨owner, howner, hrow⟩ := requestOf_owner hi
  rw [hrow s] at hexec
  obtain rfl := Host.Outcome.next.inj hexec
  by_cases hlong : 60 < f.body.length
  · rw [takeRequest_of_long _ _ _ htakes hlong] at hport ⊢
    cases hport
    rfl
  · have hshort : f.body.length ≤ 60 := by omega
    cases hanswer : (owner f.body (s.taken f)).2 with
    | walking w =>
      rw [takeRequest_of_taken _ _ _ htakes hshort, hanswer] at hport
      cases hport
    | reply st body =>
      rw [takeRequest_of_reply htakes hshort (Prod.ext rfl hanswer)] at hport ⊢
      cases hport
      have hclean := ownerOf_refuses howner f.body (s.taken f) st body hanswer hno
      have hbody : body = [] := by
        rw [hclean] at hanswer
        cases hanswer
        rfl
      rw [hclean, hbody]

/-! ## Collections (R176) -/

theorem State.endingTransfer_of_replying {s : State} {r : Reply} (hport : s.port = .replying r)
    (h : s.transfer = none ∨ s.transfer = some { startedIn := .replying, shiftOut := r.frame }) :
    s.endingTransfer = { startedIn := .replying, shiftOut := r.frame } := by
  unfold State.endingTransfer
  rcases h with h | h <;> rw [h]
  · rw [hport]; rfl
  · rfl

theorem Reply.length_frame (r : Reply) : r.frame.length = 4 + r.body.length := by
  simp only [Reply.frame, List.length_append, List.length_cons, List.length_nil]

theorem collect_replying {s : State} {r : Reply} {count : Nat} (hport : s.port = .replying r) (hcount : 1 ≤ count)
    (h : s.transfer = none ∨ s.transfer = some { startedIn := .replying, shiftOut := r.frame }) :
    collect count s =
      { s with
        port := if 4 + r.body.length ≤ count then .empty else s.port
        transfer := none
        shiftedOut := r.frame.take count ++ List.replicate (count - r.frame.length) 0 } := by
  have htransfer := State.endingTransfer_of_replying hport h
  unfold collect State.endTransfer
  rw [if_neg (by omega), htransfer]
  dsimp only
  rw [hport]
  dsimp only
  split_ifs <;> rfl

/-- Settles O8. -/
theorem collectionReturnsTheReply : Obligations.CollectionReturnsTheReply := by
  refine ⟨fun _ => rfl, rfl, fun s r count hport hcount htransfer => ⟨fun hwhole => ?_, fun hpart => ?_⟩⟩
  · show Host.Outcome.next (collect count s) = _
    rw [collect_replying hport hcount htransfer, if_pos hwhole, r.length_frame,
      List.take_of_length_le (r.length_frame.le.trans hwhole)]
  · show Host.Outcome.next (collect count s) = _
    rw [collect_replying hport hcount htransfer, if_neg (by omega), r.length_frame, Nat.sub_eq_zero_of_le hpart.le]
    simp

/-! ## Latches and settings -/

/-- Settles O11. -/
theorem statusReportsThenClears : Obligations.StatusReportsThenClears := by
  intro s f htakes hlength
  refine ⟨?_, fun c => Conditions.has_without _ _ c⟩
  have howner : statusOwner f.body (s.taken f) =
      ({ s.taken f with latches := s.latches.without (Conditions.ofByte (byteAt f.body 0)) },
        .reply .ok (statusBody s)) := by
    unfold statusOwner
    rw [if_neg (not_not.mpr hlength)]
    rfl
  rw [exec_of_reply rfl htakes (by omega) howner]
  rfl

theorem settingsChecks_pass {s : State} {body : List Byte} {n : Nat} (hlength : body.length = n)
    (hactive : s.run.state.active = false) (hcensus : s.census = none) (st : Status) :
    firstFailing ([lengthCheck body n] ++ s.busyChecks st) = none := by
  rw [firstFailing_eq_none]
  simp [lengthCheck, State.busyChecks, hlength, hactive, hcensus]

theorem settingsChecks_busy {s : State} {body : List Byte} {n : Nat} (hlength : body.length = n)
    (h : s.run.state.active = true ∨ s.census ≠ none) :
    firstFailing ([lengthCheck body n] ++ s.busyChecks .busy) = some .busy := by
  have hcensus : s.run.state.active = false → s.census.isSome = true := fun hactive =>
    Option.isSome_iff_ne_none.mpr (h.resolve_left (by simp [hactive]))
  unfold State.busyChecks lengthCheck
  simp only [hlength, ne_eq, not_true_eq_false, decide_false, List.cons_append, List.nil_append, firstFailing]
  cases hactive : s.run.state.active with
  | true => rfl
  | false => rw [hcensus hactive]; rfl

theorem clampTicks_toNat (w : BitVec 16) : (clampTicks w).toNat = max 1 w.toNat := by
  unfold clampTicks
  split
  · rename_i h; rw [h]; rfl
  · rename_i h
    have hpos : w.toNat ≠ 0 := fun hz => h (BitVec.eq_of_toNat_eq hz)
    omega

/-- Settles O14. -/
theorem settingsRequestsStoreTheirFields : Obligations.SettingsRequestsStoreTheirFields := by
  intro s f htakes
  refine ⟨fun hlength hactive hcensus => ?_, fun hlength hactive hcensus => ?_, fun hbusy => ⟨fun hlength => ?_,
      fun hlength => ?_⟩⟩
  · have howner : configSetOwner f.body (s.taken f) =
        ({ s.taken f with settings := settingsOf f.body }, .reply .ok (settingsBody (settingsOf f.body))) := by
      unfold configSetOwner
      rw [settingsChecks_pass (s := s.taken f) hlength hactive hcensus]
    refine ⟨settingsOf f.body, ?_, ?_, clampTicks_toNat _, clampTicks_toNat _, ?_, clampTicks_toNat _⟩
    · rw [exec_of_reply rfl htakes (by omega) howner]
      rfl
    · exact (BitVec.toNat_ofNat _ _).trans (Nat.mod_eq_of_lt (by omega))
    · exact (BitVec.toNat_ofNat _ _).trans (Nat.mod_eq_of_lt (by omega))
  · refine ⟨{ prescale := (byteAt f.body 0).extractLsb' 0 4, divisor := (word16At f.body 1).extractLsb' 0 11 }, ?_,
      by simp [BitVec.extractLsb'_toNat], by simp [BitVec.extractLsb'_toNat]⟩
    refine exec_of_reply (owner := timebaseSetOwner) rfl htakes (by omega) ?_
    unfold timebaseSetOwner
    rw [settingsChecks_pass (s := s.taken f) hlength hactive hcensus]
    rfl
  · refine exec_of_reply (owner := configSetOwner) rfl htakes (by omega) ?_
    unfold configSetOwner
    rw [settingsChecks_busy (s := s.taken f) hlength hbusy]
    rfl
  · refine exec_of_reply (owner := timebaseSetOwner) rfl htakes (by omega) ?_
    unfold timebaseSetOwner
    rw [settingsChecks_busy (s := s.taken f) hlength hbusy]
    rfl

end Sys2Proof.Machine
end

section
/-! CERTIFICATE. The bytes of the replies to the read requests (sections 10.3, 10.4, 10.6), and those requests. -/

namespace Sys2Proof.Machine

/-! ## Fields of a byte string (R188) -/

theorem toNat_append8 {m : Nat} (x : BitVec m) (y : Byte) : (x ++ y).toNat = 256 * x.toNat + y.toNat := by
  rw [BitVec.toNat_append, ← Nat.shiftLeft_add_eq_or_of_lt y.isLt, Nat.shiftLeft_eq]
  omega

theorem word16At_toNat (b : List Byte) (i : Nat) :
    (word16At b i).toNat = 256 * (byteAt b i).toNat + (byteAt b (i + 1)).toNat := toNat_append8 _ _

theorem word24At_toNat (b : List Byte) (i : Nat) :
    (word24At b i).toNat = 65536 * (byteAt b i).toNat + 256 * (byteAt b (i + 1)).toNat + (byteAt b (i + 2)).toNat := by
  unfold word24At
  rw [toNat_append8, toNat_append8]
  omega

theorem byteAt_eq (b : List Byte) (i : Nat) : byteAt b i = (b[i]?).getD 0 := List.getD_eq_getElem?_getD

theorem byteAt_append_left {a : List Byte} {i : Nat} (h : i < a.length) (b : List Byte) : byteAt (a ++ b) i = byteAt a i := by
  simp only [byteAt_eq, List.getElem?_append_left h]

theorem byteAt_append_right (a b : List Byte) (i : Nat) : byteAt (a ++ b) (a.length + i) = byteAt b i := by
  simp [byteAt_eq, List.getElem?_append_right]

theorem word16At_append_right (a b : List Byte) (i : Nat) : word16At (a ++ b) (a.length + i) = word16At b i := by
  unfold word16At
  rw [Nat.add_assoc, byteAt_append_right, byteAt_append_right]

/-- The two bytes of a word make the word. -/
theorem append_bytes16 (w : BitVec 16) : w.extractLsb' 8 8 ++ w.extractLsb' 0 8 = w := by
  apply BitVec.eq_of_toNat_eq
  have := w.isLt
  rw [toNat_append8]
  simp only [BitVec.extractLsb'_toNat, Nat.shiftRight_eq_div_pow]
  omega

/-- The three bytes of a word make the word. -/
theorem append_bytes24 (w : BitVec 24) : w.extractLsb' 16 8 ++ w.extractLsb' 8 8 ++ w.extractLsb' 0 8 = w := by
  apply BitVec.eq_of_toNat_eq
  have := w.isLt
  rw [toNat_append8, toNat_append8]
  simp only [BitVec.extractLsb'_toNat, Nat.shiftRight_eq_div_pow]
  omega

theorem bytesOf16_eq (n : Nat) : bytesOf16 n = [BitVec.ofNat 8 (n / 256), BitVec.ofNat 8 n] := by
  unfold bytesOf16 bytes16
  congr 1
  · apply BitVec.eq_of_toNat_eq
    simp only [BitVec.extractLsb'_toNat, Nat.shiftRight_eq_div_pow, BitVec.toNat_ofNat]
    omega
  · congr 1
    apply BitVec.eq_of_toNat_eq
    simp only [BitVec.extractLsb'_toNat, Nat.shiftRight_eq_div_pow, BitVec.toNat_ofNat]
    omega

theorem bytes16_eq (w : BitVec 16) : bytes16 w = bytesOf16 w.toNat := by
  unfold bytesOf16
  rw [BitVec.ofNat_toNat, BitVec.setWidth_eq]

theorem bytes32_eq (w : BitVec 32) : bytes32 w = bytesOf16 (w.toNat / 65536) ++ bytesOf16 w.toNat := by
  have hbyte (i : Nat) : w.extractLsb' i 8 = BitVec.ofNat 8 (w.toNat / 2 ^ i) := by
    apply BitVec.eq_of_toNat_eq
    simp [BitVec.extractLsb'_toNat, Nat.shiftRight_eq_div_pow]
  rw [bytesOf16_eq, bytesOf16_eq]
  unfold bytes32
  simp [hbyte, Nat.div_div_eq_div_mul]

/-- The words of a list stand two bytes each. -/
theorem word16At_flatMap (ns : List Nat) (i : Nat) (h : i < ns.length) :
    word16At (ns.flatMap bytesOf16) (2 * i) = BitVec.ofNat 16 ns[i] := by
  induction ns generalizing i with
  | nil => cases h
  | cons n ns ih =>
    cases i with
    | zero => exact append_bytes16 _
    | succ i =>
      have hlength : (bytesOf16 n).length = 2 := rfl
      rw [List.flatMap_cons, show 2 * (i + 1) = (bytesOf16 n).length + 2 * i by omega, word16At_append_right,
        List.getElem_cons_succ]
      exact ih i (by simpa using h)

theorem length_flatMap_bytesOf16 (ns : List Nat) : (ns.flatMap bytesOf16).length = 2 * ns.length := by
  induction ns with
  | nil => rfl
  | cons n ns ih => rw [List.flatMap_cons, List.length_append, ih, List.length_cons]; exact Nat.add_comm _ _

/-! ## Bits of a byte -/

/-- The number whose bits are those of a list, bit 0 first. -/
def bitsValue (bits : List Bool) : Nat := bits.foldr (fun b n => b.toNat + 2 * n) 0

theorem bitsValue_lt (bits : List Bool) : bitsValue bits < 2 ^ bits.length := by
  induction bits with
  | nil => exact Nat.one_pos
  | cons b bits ih =>
    have hb : b.toNat ≤ 1 := Bool.toNat_le b
    have hcons : bitsValue (b :: bits) = b.toNat + 2 * bitsValue bits := rfl
    rw [hcons, List.length_cons, Nat.pow_succ]
    omega

theorem testBit_bitsValue (bits : List Bool) (i : Nat) (h : i < bits.length) : bits[i]? = some ((bitsValue bits).testBit i) := by
  induction bits generalizing i with
  | nil => cases h
  | cons b bits ih =>
    have hcons : bitsValue (b :: bits) = b.toNat + 2 * bitsValue bits := rfl
    cases i with
    | zero =>
      rw [hcons, List.getElem?_cons_zero, Nat.testBit_zero]
      cases b <;> simp
    | succ i =>
      rw [hcons, List.getElem?_cons_succ, ih i (by simpa using h), Nat.testBit_succ]
      have hhalf : (b.toNat + 2 * bitsValue bits) / 2 = bitsValue bits := by
        have hb : b.toNat ≤ 1 := Bool.toNat_le b
        omega
      rw [hhalf]

theorem hasBits_byteOfBits {bits : List Bool} (h : bits.length ≤ 8) : HasBits (byteOfBits bits) bits := by
  have hlt := bitsValue_lt bits
  have hpow : 2 ^ bits.length ≤ 2 ^ 8 := Nat.pow_le_pow_right (by decide) h
  have hvalue : (byteOfBits bits).toNat = bitsValue bits :=
    (BitVec.toNat_ofNat _ _).trans (Nat.mod_eq_of_lt (hlt.trans_le hpow))
  refine ⟨hvalue ▸ hlt, fun i hi => ?_⟩
  rw [testBit_bitsValue bits i hi, ← hvalue, BitVec.testBit_toNat]

theorem byteOf_toNat {n : Nat} (h : n < 256) : (byteOf n).toNat = n :=
  (BitVec.toNat_ofNat _ _).trans (Nat.mod_eq_of_lt h)

/-- The first byte of a program: kind, barrier, presences, guard count and judge mode. -/
theorem programByte_fields :
    ∀ (contact barrier hi lo relative : Bool) (guards : Fin 5),
      let b := byteOf (contact.toNat + 2 * barrier.toNat + 4 * hi.toNat + 8 * lo.toNat + 16 * guards.val + 128 * relative.toNat)
      b.getLsbD 0 = contact ∧ b.getLsbD 1 = barrier ∧ b.getLsbD 2 = hi ∧ b.getLsbD 3 = lo ∧ b.toNat / 16 % 8 = guards.val
        ∧ b.getLsbD 7 = relative := by
  decide

/-! ## Step records (section 10.3) -/

theorem StepKind.code_eq (k : StepKind) : k.code = (decide (k = .contact)).toNat := by cases k <;> rfl

theorem byteAt_zero (x : Byte) (l : List Byte) : byteAt (x :: l) 0 = x := rfl

theorem byteAt_succ (x : Byte) (l : List Byte) (i : Nat) : byteAt (x :: l) (i + 1) = byteAt l i := rfl

/-- The program part of a step record stands at offset 6. -/
theorem stepRecordBody_program (k : Slot) (ss : StepSlot) {r : StepRecord} (h : r.program.nails.guards.length ≤ 4) :
    ProgramAt (stepRecordBody k ss r) 6 r.program := by
  obtain ⟨⟨kind, key, barrier, nails, timing, retry, limits⟩, stats, status⟩ := r
  have hrange : timing.baseRange.val < 256 := by omega
  have hretry : retry.val < 256 := by omega
  have hclass : timing.settleClass.toNat < 256 := timing.settleClass.isLt.trans (by decide)
  have hcapacitance : (timing.capacitance.setWidth 24).toNat = timing.capacitance.toNat := by
    have := timing.capacitance.isLt
    rw [BitVec.toNat_setWidth]
    omega
  have hfirst (relative : Bool) := programByte_fields (decide (kind = .contact)) barrier nails.snsHi.isSome
    nails.snsLo.isSome relative ⟨nails.guards.length, by simpa using Nat.lt_succ_of_le h⟩
  rw [← StepKind.code_eq] at hfirst
  unfold ProgramAt bitAt word16At word24At
  cases limits with
  | absolute lo hi =>
    obtain ⟨hkind, hbarrier, hhi, hlo, hguards, hmode⟩ := hfirst false
    simp only [stepRecordBody, StepProgram.bytes, bytesOf16, bytes16, bytes24, List.cons_append, List.nil_append, byteAt_succ,
      byteAt_zero, append_bytes16, append_bytes24, byteOf_toNat hrange, byteOf_toNat hretry, byteOf_toNat hclass,
      hcapacitance, true_and, and_true]
    exact ⟨hkind, hbarrier, hhi, hlo, hguards, hmode⟩
  | relative nominal tolLo tolHi =>
    obtain ⟨hkind, hbarrier, hhi, hlo, hguards, hmode⟩ := hfirst true
    simp only [stepRecordBody, StepProgram.bytes, bytesOf16, bytes16, bytes24, List.cons_append, List.nil_append, byteAt_succ,
      byteAt_zero, append_bytes16, append_bytes24, byteOf_toNat hrange, byteOf_toNat hretry, byteOf_toNat hclass,
      hcapacitance, true_and, and_true]
    exact ⟨hkind, hbarrier, hhi, hlo, hguards, hmode⟩

/-- The nails of a record stand at the end of its reply. -/
theorem stepRecordBody_split (k : Slot) (ss : StepSlot) (r : StepRecord) :
    ∃ head : List Byte, head.length = 49 ∧
      stepRecordBody k ss r = head ++ (r.program.nails.toList.map (fun n => n.val)).flatMap bytesOf16 := by
  rw [List.flatMap_map]
  refine ⟨_, ?_, rfl⟩
  cases hlimits : r.program.limits <;> simp [StepProgram.bytes, bytesOf16, bytes16, bytes24, hlimits]

theorem Fin.bytes_toNat {n : Nat} (h : n ≤ 65536) (k : Fin n) : (BitVec.ofNat 16 k.val).toNat = k.val :=
  (BitVec.toNat_ofNat _ _).trans (Nat.mod_eq_of_lt (by omega))

theorem verdictCode_lt (v : Option Verdict) : verdictCode v < 256 := by
  cases v with
  | none => decide
  | some v => unfold verdictCode; dsimp only; omega

/-- The state, reasons, flags and mask of a step record. -/
theorem stepRecordBody_status (k : Slot) (mark : Bool) (r : StepRecord) :
    let b := stepRecordBody k { runMark := mark, record := some r } r
    (byteAt b 2).toNat = stateCodeOf (some r)
    ∧ (match r.status with
      | .ready => byteAt b 3 = 0 ∧ HasBits (byteAt b 4) [false, false, mark, r.stats.settleClamped] ∧ byteAt b 5 = 0
      | .parked p =>
        HasBits (byteAt b 3) [p.requested, p.nail] ∧ HasBits (byteAt b 4) [false, false, mark, r.stats.settleClamped]
          ∧ byteAt b 5 = 0
      | .held p d q =>
        HasBits (byteAt b 3) [p] ∧ HasBits (byteAt b 4) [q, d.isSome, mark, r.stats.settleClamped]
          ∧ (match d with
            | none => byteAt b 5 = 0
            | some e =>
              HasBits (byteAt b 5) [e.order.isSome, e.nails.isSome, e.timing.isSome, e.limits.isSome, e.retry.isSome,
                e.offset.isSome, e.counts])) := by
  obtain ⟨program, stats, status⟩ := r
  simp only [stepRecordBody, bytesOf16, bytes16, List.cons_append, List.nil_append, byteAt_succ, byteAt_zero]
  cases status with
  | ready => exact ⟨rfl, rfl, hasBits_byteOfBits (by simp), rfl⟩
  | parked p => exact ⟨rfl, hasBits_byteOfBits (by simp), hasBits_byteOfBits (by simp), rfl⟩
  | held p d q =>
    refine ⟨rfl, hasBits_byteOfBits (by simp), hasBits_byteOfBits (by simp), ?_⟩
    cases d with
    | none => rfl
    | some e => exact hasBits_byteOfBits (by simp)

/-- The learned and recorded fields of a step record. -/
theorem stepRecordBody_stats (k : Slot) (ss : StepSlot) (r : StepRecord) :
    let b := stepRecordBody k ss r
    word24At b 32 = r.stats.offset ∧ byteAt b 35 = r.stats.learnCount
    ∧ (byteAt b 36).toNat = verdictCode r.stats.lastVerdict
    ∧ HasBits (byteAt b 37) [r.stats.lastValue.isSome, r.stats.lastDeviation.isSome, r.stats.lastRange.isSome,
        r.stats.lastRun.isSome]
    ∧ word24At b 38 = r.stats.lastValue.getD 0 ∧ word16At b 41 = r.stats.lastDeviation.getD 0
    ∧ byteAt b 43 = byteOf (r.stats.lastRange.getD 0) ∧ byteAt b 44 = r.stats.consecutiveFails
    ∧ word16At b 45 = r.stats.failTotal ∧ word16At b 47 = r.stats.lastRun.getD 0 := by
  unfold word16At word24At
  cases hlimits : r.program.limits <;>
    simp only [stepRecordBody, StepProgram.bytes, bytesOf16, bytes16, bytes24, hlimits, List.cons_append, List.nil_append,
      byteAt_succ, byteAt_zero, append_bytes16, append_bytes24, byteOf_toNat (verdictCode_lt _), true_and, and_true] <;>
    exact hasBits_byteOfBits (by simp)

theorem stepRecordBody_at (k : Slot) (mark : Bool) {r : StepRecord} (h : r.program.nails.guards.length ≤ 4) :
    StepRecordAt (stepRecordBody k { runMark := mark, record := some r } r) k mark r := by
  obtain ⟨head, hhead, hsplit⟩ := stepRecordBody_split k { runMark := mark, record := some r } r
  obtain ⟨hcode, hstatus⟩ := stepRecordBody_status k mark r
  have hslot : (word16At (stepRecordBody k { runMark := mark, record := some r } r) 0).toNat = k.val := by
    unfold word16At
    simp only [stepRecordBody, bytesOf16, bytes16, List.cons_append, List.nil_append, byteAt_succ, byteAt_zero,
      append_bytes16]
    exact Fin.bytes_toNat (by decide) k
  obtain ⟨hoffset, hlearn, hverdict, hpresent, hvalue, hdeviation, hrange, hfails, htotal, hrun⟩ :=
    stepRecordBody_stats k { runMark := mark, record := some r } r
  refine ⟨?_, hslot, hcode, hstatus, stepRecordBody_program k _ h, hoffset, hlearn, hverdict, hpresent, hvalue, hdeviation,
    hrange, hfails, htotal, hrun, fun i hi => ?_⟩
  · rw [hsplit, List.length_append, length_flatMap_bytesOf16, hhead, List.length_map]
  · have hi' : i < (r.program.nails.toList.map (fun n => n.val)).length := by rwa [List.length_map]
    rw [hsplit, ← hhead, word16At_append_right, word16At_flatMap _ i hi', List.getElem_map,
      Fin.bytes_toNat (by decide), List.getElem?_eq_getElem hi]
    rfl

/-! ## Nail entries (section 10.4) -/

/-- The bindings of a nail, by lane. -/
def NailEntry.held (e : NailEntry) : List (LaneNo × Role) :=
  allLanes.filterMap (fun l => (e.bindings[l]).map (fun bus => (l, bus)))

theorem NailEntry.bindingBytes_eq (e : NailEntry) :
    e.bindingBytes = e.held.map (fun x => byteOf (16 * x.1.val + x.2.code)) := by
  unfold NailEntry.bindingBytes NailEntry.held
  rw [List.map_filterMap]
  simp [Function.comp_def]

theorem NailEntry.length_held (e : NailEntry) : e.held.length ≤ 4 := List.length_filterMap_le _ _

theorem Role.code_lt (role : Role) : role.code < 5 := by cases role <;> decide

theorem NailEntry.byteAt_bindings (e : NailEntry) (i : Nat) :
    (byteAt (e.bindingBytes ++ List.replicate (4 - e.bindingBytes.length) 0) i).toNat =
      (match e.held[i]? with
      | none => 0
      | some (l, bus) => 16 * l.val + bus.code) := by
  rw [e.bindingBytes_eq]
  by_cases h : i < e.held.length
  · have hcode : 16 * e.held[i].1.val + e.held[i].2.code < 256 := by
      have := e.held[i].1.isLt
      have := e.held[i].2.code_lt
      omega
    rw [byteAt_append_left (by rwa [List.length_map]), byteAt_eq, List.getElem?_map, List.getElem?_eq_getElem h]
    exact byteOf_toNat hcode
  · have hpad : byteAt (List.replicate (4 - e.held.length) (0 : Byte)) (i - e.held.length) = 0 := by
      rw [byteAt_eq, List.getElem?_replicate]
      split <;> rfl
    have hpos : i = (e.held.map (fun x => byteOf (16 * x.1.val + x.2.code))).length + (i - e.held.length) := by
      rw [List.length_map]; omega
    rw [List.getElem?_eq_none (by omega), List.length_map]
    rw [hpos, byteAt_append_right]
    simpa using congrArg BitVec.toNat hpad

theorem nailEntryBody_at (n : NailNo) (e : NailEntry) : NailEntryAt (nailEntryBody n e) n e := by
  have hlength := e.length_held
  have hcount : e.bindingBytes.length = e.held.length := by rw [e.bindingBytes_eq, List.length_map]
  have hcard : (byteOf (cardOf n).val).toNat = n.val / 256 := byteOf_toNat (by have := n.isLt; simp only [cardOf]; omega)
  have hstate : (byteOf e.state.code).toNat = e.state.code := byteOf_toNat (by cases e.state <;> decide)
  have hfails : (byteOf e.contactFails.toNat).toNat = e.contactFails.toNat :=
    byteOf_toNat (e.contactFails.isLt.trans (by decide))
  have hpoint : (crosspointOf n).toNat = n.val % 256 := byteOf_toNat (Nat.mod_lt _ (by decide))
  have hbound : (byteOf e.bindingBytes.length).toNat = e.held.length := (byteOf_toNat (by omega)).trans hcount
  unfold NailEntryAt word16At
  simp only [nailEntryBody, bytesOf16, bytes16, List.cons_append, List.nil_append, byteAt_succ, byteAt_zero,
    append_bytes16, hcard, hstate, hfails, hpoint, hbound, true_and]
  refine ⟨?_, Fin.bytes_toNat (by decide) n, hasBits_byteOfBits (by simp), rfl, fun i _ => ?_⟩
  · simp only [List.length_cons, List.length_append, List.length_replicate, hcount]
    omega
  · rw [show 10 + i = i + 1 + 1 + 1 + 1 + 1 + 1 + 1 + 1 + 1 + 1 by omega]
    simp only [byteAt_succ]
    exact e.byteAt_bindings i

/-! ## The run summary (section 10.6) -/

theorem abortReasonCode_lt (r : Option AbortReason) : abortReasonCode r < 256 := by
  rcases r with _ | _ | _ | _ <;> decide

theorem append_words32 (w : BitVec 32) :
    (w.extractLsb' 24 8 ++ w.extractLsb' 16 8) ++ (w.extractLsb' 8 8 ++ w.extractLsb' 0 8) = w := by
  apply BitVec.eq_of_toNat_eq
  have := w.isLt
  rw [BitVec.toNat_append, ← Nat.shiftLeft_add_eq_or_of_lt (BitVec.isLt _), Nat.shiftLeft_eq, toNat_append8, toNat_append8]
  simp only [BitVec.extractLsb'_toNat, Nat.shiftRight_eq_div_pow]
  omega

/-- The counts at the end of a summary: by verdict, then dispatched, retries and not run. -/
def RunControl.countWords (run : RunControl) : List Nat :=
  run.summary.verdicts.toList ++ [run.summary.dispatched, run.summary.retries, run.summary.notRun.getD 0]

theorem RunControl.length_countWords (run : RunControl) : run.countWords.length = 14 := by simp [RunControl.countWords]

theorem summaryBody_split (run : RunControl) :
    ∃ head : List Byte, head.length = 12 ∧ summaryBody run = head ++ run.countWords.flatMap bytesOf16 := by
  have hcounts : run.countWords.flatMap bytesOf16 = run.summary.verdicts.toList.flatMap bytesOf16
      ++ (bytesOf16 run.summary.dispatched ++ (bytesOf16 run.summary.retries ++ bytesOf16 (run.summary.notRun.getD 0))) := by
    simp [RunControl.countWords]
  refine ⟨bytes16 run.number
    ++ [byteOf run.summary.mode.code, byteOfBits [run.summary.reverse], byteOf run.summary.weight.val,
        byteOf run.state.code, byteOf (abortReasonCode run.summary.abortReason),
        byteOfBits [run.summary.notRun.isSome, decide (run.fixture = .closed)]]
    ++ bytes32 run.summary.elapsed, rfl, ?_⟩
  rw [hcounts]
  simp only [summaryBody, List.append_assoc]

theorem summaryBody_counts (run : RunControl) (i : Nat) (h : i < 14) :
    word16At (summaryBody run) (12 + 2 * i) =
      BitVec.ofNat 16 (run.countWords[i]'(by rw [run.length_countWords]; exact h)) := by
  obtain ⟨head, hhead, hsplit⟩ := summaryBody_split run
  rw [hsplit, ← hhead, word16At_append_right, word16At_flatMap]

/-- The fields of a summary before its counts. -/
theorem summaryBody_head (run : RunControl) :
    let b := summaryBody run
    word16At b 0 = run.number ∧ (byteAt b 2).toNat = run.summary.mode.code
    ∧ HasBits (byteAt b 3) [run.summary.reverse] ∧ (byteAt b 4).toNat = run.summary.weight.val
    ∧ (byteAt b 5).toNat = run.state.code ∧ (byteAt b 6).toNat = abortReasonCode run.summary.abortReason
    ∧ HasBits (byteAt b 7) [run.summary.notRun.isSome, decide (run.fixture = .closed)]
    ∧ word16At b 8 ++ word16At b 10 = run.summary.elapsed := by
  have hmode : (byteOf run.summary.mode.code).toNat = run.summary.mode.code := byteOf_toNat (by cases run.summary.mode <;> decide)
  have hweight : (byteOf run.summary.weight.val).toNat = run.summary.weight.val := byteOf_toNat (by omega)
  have hstate : (byteOf run.state.code).toNat = run.state.code := byteOf_toNat (by cases run.state <;> decide)
  have hreason := byteOf_toNat (abortReasonCode_lt run.summary.abortReason)
  unfold word16At
  simp only [summaryBody, bytes16, bytes32, List.cons_append, List.nil_append, byteAt_succ, byteAt_zero, append_bytes16,
    append_words32, hmode, hweight, hstate, hreason, true_and, and_true]
  exact ⟨hasBits_byteOfBits (by simp), hasBits_byteOfBits (by simp)⟩

theorem summaryBody_at (run : RunControl) : SummaryAt (summaryBody run) run := by
  obtain ⟨head, hhead, hsplit⟩ := summaryBody_split run
  obtain ⟨hnumber, hmode, hdirection, hweight, hstate, hreason, hflags, helapsed⟩ := summaryBody_head run
  have hcounts : run.summary.verdicts.toList.length = 11 := by simp
  refine ⟨?_, hnumber, hmode, hdirection, hweight, hstate, hreason, hflags, helapsed, fun v => ?_, ?_, ?_, ?_⟩
  · rw [hsplit, List.length_append, length_flatMap_bytesOf16, hhead, run.length_countWords]
  · rw [summaryBody_counts run v.val (by omega)]
    simp only [RunControl.countWords]
    rw [List.getElem_append_left (by omega)]
    simp
  · exact (summaryBody_counts run 11 (by decide)).trans (by simp [RunControl.countWords])
  · exact (summaryBody_counts run 12 (by decide)).trans (by simp [RunControl.countWords])
  · exact (summaryBody_counts run 13 (by decide)).trans (by simp [RunControl.countWords])

/-! ## The read requests -/

theorem slotOf_eq_some {w : BitVec 16} {k : Slot} : slotOf w = some k ↔ w.toNat = k.val := by
  unfold slotOf
  split
  · rw [Option.some_inj, Fin.ext_iff]
  · rename_i h
    refine ⟨nofun, fun heq => absurd ?_ h⟩
    rw [heq]
    exact k.isLt

theorem namedNail_eq_some {w : BitVec 16} {n : NailNo} : namedNail w = some n ↔ w.toNat = n.val := by
  unfold namedNail
  split
  · rw [Option.some_inj, Fin.ext_iff]
  · rename_i h
    refine ⟨nofun, fun heq => absurd ?_ h⟩
    rw [heq]
    exact n.isLt

theorem namedNail_eq_none {w : BitVec 16} (h : 4096 ≤ w.toNat) : namedNail w = none := dif_neg (by omega)

theorem State.namedRecord_of_record {s : State} {w : BitVec 16} {k : Slot} {r : StepRecord} (hw : w.toNat = k.val)
    (hr : s.recordAt k = some r) : s.namedRecord w = some (k, r) := by
  unfold State.namedRecord
  rw [slotOf_eq_some.mpr hw]
  dsimp only
  rw [hr]
  rfl

theorem State.namedRecord_of_free {s : State} {w : BitVec 16} (h : ∀ k : Slot, w.toNat = k.val → s.recordAt k = none) :
    s.namedRecord w = none := by
  unfold State.namedRecord
  split
  · rfl
  · rename_i k hk
    rw [h k (slotOf_eq_some.mp hk)]
    rfl

/-- Settles O15. -/
theorem readRequestsReturnRecords : Obligations.ReadRequestsReturnRecords := by
  refine ⟨fun s f htakes => ⟨fun k r hlength hk hr => ?_, fun hlength hfree => ?_, fun n hlength hn => ?_, fun hlength hn => ?_,
    fun hbody => ?_⟩, fun k mark r => stepRecordBody_at k mark, nailEntryBody_at, summaryBody_at, rfl,
    ⟨rfl, fun r => ⟨?_, ?_, ?_⟩⟩,
    rfl, rfl, rfl, rfl, rfl, rfl, rfl, fun b i => ⟨byteAt_eq b i, word16At_toNat b i, word24At_toNat b i⟩,
    fun n => ⟨rfl, bytesOf16_eq n, bytes16_eq, bytes32_eq⟩⟩
  · refine exec_of_reply (owner := stepReadOwner) rfl htakes (by omega) ?_
    unfold stepReadOwner
    rw [if_neg (not_not.mpr hlength), State.namedRecord_of_record (s := s.taken f) hk hr]
    rfl
  · refine exec_of_reply (owner := stepReadOwner) rfl htakes (by omega) ?_
    unfold stepReadOwner
    rw [if_neg (not_not.mpr hlength), State.namedRecord_of_free (s := s.taken f) hfree]
    rfl
  · refine exec_of_reply (owner := nailReadOwner) rfl htakes (by omega) ?_
    unfold nailReadOwner
    rw [if_neg (not_not.mpr hlength), namedNail_eq_some.mpr hn]
    rfl
  · refine exec_of_reply (owner := nailReadOwner) rfl htakes (by omega) ?_
    unfold nailReadOwner
    rw [if_neg (not_not.mpr hlength), namedNail_eq_none hn]
    rfl
  · refine exec_of_reply (owner := runSummaryOwner) rfl htakes (by simp [hbody]) ?_
    unfold runSummaryOwner
    rw [if_neg (by simp [hbody])]
    rfl
  · intro h; simp [stateCodeOf, h]
  · rintro ⟨p, d, q, h⟩; simp [stateCodeOf, h]
  · rintro ⟨p, h⟩; simp [stateCodeOf, h]

end Sys2Proof.Machine
end

section
/-! CERTIFICATE. STEP PARK, STEP UNPARK and STEP RETIRE (R9, R10, R19 to R22). -/

namespace Sys2Proof.Machine

/-! ## Changes of the tables alone -/

/-- Only the Step Table and the Nail Map may differ. -/
def TablesChanged (s t : State) : Prop := ∃ steps nails, t = { s with steps := steps, nails := nails }

namespace TablesChanged

variable {s t u : State}

theorem refl (s : State) : TablesChanged s s := ⟨s.steps, s.nails, rfl⟩

theorem trans (h : TablesChanged s t) (g : TablesChanged t u) : TablesChanged s u := by
  obtain ⟨_, _, rfl⟩ := h
  obtain ⟨steps, nails, rfl⟩ := g
  exact ⟨steps, nails, rfl⟩

theorem setSlot (s : State) (k : Slot) (v : StepSlot) : TablesChanged s (s.setSlot k v) := ⟨_, s.nails, rfl⟩

theorem setRecord (s : State) (k : Slot) (r : StepRecord) : TablesChanged s (s.setRecord k r) := setSlot s k _

theorem raiseRefs (s : State) (ns : List NailNo) : TablesChanged s (s.raiseRefs ns) :=
  ⟨s.steps, _, State.raiseRefs_frame ns s⟩

theorem lowerRefs (s : State) (ns : List NailNo) : TablesChanged s (s.lowerRefs ns) :=
  ⟨s.steps, _, State.lowerRefs_frame ns s⟩

theorem moveRefs (s : State) (b a : NailList) : TablesChanged s (s.moveRefs b a) := (lowerRefs s _).trans (raiseRefs _ _)

theorem applyEdit (s : State) (k : Slot) (r : StepRecord) (e : StepEdit) : TablesChanged s (s.applyEdit k r e) := by
  unfold State.applyEdit
  split
  · exact setRecord s k _
  · exact (moveRefs s _ _).trans (setRecord _ k _)

theorem freeSlot (s : State) (k : Slot) (r : StepRecord) : TablesChanged s (s.freeSlot k r) :=
  (lowerRefs s _).trans (setSlot _ k _)

theorem resolve (s : State) (k : Slot) : TablesChanged s (s.resolve k) := ⟨_, _, s.resolve_frame k⟩

theorem links (h : TablesChanged s t) : SameLinks s t := by
  obtain ⟨_, _, rfl⟩ := h; exact ⟨rfl, rfl, rfl, rfl, rfl⟩

theorem settings (h : TablesChanged s t) : SameSettings s t := by
  obtain ⟨_, _, rfl⟩ := h; exact ⟨rfl, rfl, rfl, rfl, rfl⟩

theorem run (h : TablesChanged s t) : t.run = s.run := by obtain ⟨_, _, rfl⟩ := h; rfl

theorem exam (h : TablesChanged s t) : t.exam = s.exam := by obtain ⟨_, _, rfl⟩ := h; rfl

theorem latches (h : TablesChanged s t) : t.latches = s.latches := by obtain ⟨_, _, rfl⟩ := h; rfl

end TablesChanged

theorem SameSettings.trans {s t u : State} (h : SameSettings s t) (g : SameSettings t u) : SameSettings s u := by
  obtain ⟨htimebase, henables, hsettings, hdraws, hpending⟩ := h
  obtain ⟨gtimebase, genables, gsettings, gdraws, gpending⟩ := g
  exact ⟨gtimebase.trans htimebase, genables.trans henables, gsettings.trans hsettings, gdraws.trans hdraws,
    gpending.trans hpending⟩

theorem SameSettings.testRunEnd (s : State) : SameSettings s s.testRunEnd := by
  rw [State.testRunEnd_frame]; exact ⟨rfl, rfl, rfl, rfl, rfl⟩

theorem SameSettings.report (s : State) : SameSettings s s.reportOpportunity := by
  rw [State.reportOpportunity_eq]; exact ⟨rfl, rfl, rfl, rfl, rfl⟩

theorem State.exam_testRunEnd (s : State) : s.testRunEnd.exam = s.exam := by rw [State.testRunEnd_frame]

theorem State.steps_testRunEnd (s : State) : s.testRunEnd.steps = s.steps := by rw [State.testRunEnd_frame]

theorem State.nails_testRunEnd (s : State) : s.testRunEnd.nails = s.nails := by rw [State.testRunEnd_frame]

/-- The run's end tested after a change of the tables. -/
theorem TablesChanged.tested {s t : State} (h : TablesChanged s t) : RunEndTested s.run s.latches t.testRunEnd := by
  rw [← h.run, ← h.latches]
  exact t.testRunEnd_tested

/-! ## What a placed reply leaves (R175) -/

section
variable {s t : State} (code : Byte) (f : RequestFrame) (st : Status) (body : List Byte)

theorem State.port_replied :
    (t.replied code f st body).port = .replying { code := code, tag := f.tag, status := st, body := body } := rfl

theorem State.slotAt_replied (k : Slot) : (t.replied code f st body).slotAt k = t.slotAt k := rfl

theorem State.nailAt_replied (n : NailNo) : (t.replied code f st body).nailAt n = t.nailAt n := rfl

theorem State.exam_replied : (t.replied code f st body).exam = t.exam := rfl

theorem State.run_replied : (t.replied code f st body).run = t.run := rfl

theorem State.latches_replied : (t.replied code f st body).latches = t.latches := rfl

theorem RunEndTested.replied {run : RunControl} {latches : Conditions} (h : RunEndTested run latches t) :
    RunEndTested run latches (t.replied code f st body) := h

theorem SameLinks.replied (h : SameLinks (s.taken f) t) : SameLinks s (t.replied code f st body) := h

theorem SameSettings.replied (h : SameSettings (s.taken f) t) : SameSettings s (t.replied code f st body) := h

end

theorem TablesChanged.links_testRunEnd {s t : State} (h : TablesChanged s t) : SameLinks s t.testRunEnd :=
  h.links.trans (.testRunEnd t)

theorem TablesChanged.settings_testRunEnd {s t : State} (h : TablesChanged s t) : SameSettings s t.testRunEnd :=
  h.settings.trans (.testRunEnd t)

/-! ## The record a request names (R10) -/

theorem State.openRecord_of_record {s : State} {w : BitVec 16} {k : Slot} {r : StepRecord} (hw : w.toNat = k.val)
    (hr : s.recordAt k = some r) (hopen : r.status.retiring = false) : s.openRecord w = some (k, r) := by
  unfold State.openRecord
  rw [State.namedRecord_of_record hw hr]
  simp [hopen]

/-- No request of this kind is taken for the slot: it is FREE, or its record is to be retired. -/
def State.closedSlot (s : State) (k : Slot) : Prop :=
  s.recordAt k = none ∨ ∃ r p d, s.recordAt k = some r ∧ r.status = .held p d true

theorem State.openRecord_of_closed {s : State} {w : BitVec 16} (h : ∀ k : Slot, w.toNat = k.val → s.closedSlot k) :
    s.openRecord w = none := by
  cases hw : slotOf w with
  | none => simp [State.openRecord, State.namedRecord, hw]
  | some k =>
    have hk := slotOf_eq_some.mp hw
    rcases h k hk with hfree | ⟨r, p, d, hr, hstatus⟩
    · simp [State.openRecord, State.namedRecord, hw, hfree]
    · unfold State.openRecord
      rw [State.namedRecord_of_record hk hr]
      simp [hstatus, StepStatus.retiring]

theorem State.closedSlot_of_only {s : State} {w : BitVec 16} {k : Slot} (hw : w.toNat = k.val) (h : s.closedSlot k) (j : Slot)
    (hj : w.toNat = j.val) : s.closedSlot j := by
  have hjk : j = k := Fin.ext (hj.symm.trans hw)
  rwa [hjk]

/-! ## The step state reply (section 10.3) -/

theorem stepStateBody_free (k : Slot) (mark : Bool) :
    stepStateBody k { runMark := mark, record := none } = bytesOf16 k.val ++ [0, 0] := rfl

theorem stepStateBody_ready {k : Slot} {mark : Bool} {r : StepRecord} (h : r.status = .ready) :
    stepStateBody k { runMark := mark, record := some r } = bytesOf16 k.val ++ [1, 0] := by
  unfold stepStateBody StepSlot.stateCode StepSlot.reasonsByte
  simp only [h]
  rfl

theorem stepStateBody_held {k : Slot} {mark : Bool} {r : StepRecord} {p : Bool} {d : Option StepEdit} {q : Bool}
    (h : r.status = .held p d q) :
    stepStateBody k { runMark := mark, record := some r } = bytesOf16 k.val ++ [2, byteOf p.toNat] := by
  unfold stepStateBody StepSlot.stateCode StepSlot.reasonsByte
  simp only [h]
  rfl

theorem stepStateBody_parked {k : Slot} {mark : Bool} {r : StepRecord} {p : ParkReasons} (h : r.status = .parked p) :
    stepStateBody k { runMark := mark, record := some r } =
      bytesOf16 k.val ++ [3, byteOf (p.requested.toNat + 2 * p.nail.toNat)] := by
  unfold stepStateBody StepSlot.stateCode StepSlot.reasonsByte
  simp only [h]
  rfl

theorem State.stepStateReply_congr {s t : State} (h : t.steps = s.steps) (k : Slot) :
    t.stepStateReply k = s.stepStateReply k := by
  unfold State.stepStateReply
  rw [State.slotAt_congr h]

theorem State.stepStateReply_setRecord (s : State) (k : Slot) (r : StepRecord) :
    (s.setRecord k r).stepStateReply k = stepStateBody k { runMark := (s.slotAt k).runMark, record := some r } := by
  unfold State.stepStateReply
  rw [State.slotAt_setRecord_self]

theorem State.stepStateReply_of_record {s : State} {k : Slot} {r : StepRecord} (h : s.recordAt k = some r) :
    s.stepStateReply k = stepStateBody k { runMark := (s.slotAt k).runMark, record := some r } := by
  unfold State.stepStateReply
  rw [← h]
  rfl

/-! ## STEP PARK and STEP UNPARK -/

theorem stepParkOwner_of_closed {body : List Byte} {s : State} (hlength : body.length = 2)
    (h : ∀ k : Slot, (word16At body 0).toNat = k.val → s.closedSlot k) :
    stepParkOwner body s = (s, refuse .noSuchStep) := by
  unfold stepParkOwner
  rw [if_neg (not_not.mpr hlength), State.openRecord_of_closed h]

theorem stepUnparkOwner_of_closed {body : List Byte} {s : State} (hlength : body.length = 2)
    (h : ∀ k : Slot, (word16At body 0).toNat = k.val → s.closedSlot k) :
    stepUnparkOwner body s = (s, refuse .noSuchStep) := by
  unfold stepUnparkOwner
  rw [if_neg (not_not.mpr hlength), State.openRecord_of_closed h]

section
variable {body : List Byte} {s : State} {k : Slot} {r : StepRecord}

theorem stepParkOwner_ready (hlength : body.length = 2) (hk : (word16At body 0).toNat = k.val)
    (hr : s.recordAt k = some r) (hstatus : r.status = .ready) :
    stepParkOwner body s =
      ((s.setRecord k { r with status := .parked { requested := true, nail := false } }).testRunEnd,
        .reply .ok (bytesOf16 k.val ++ [3, 1])) := by
  unfold stepParkOwner
  rw [if_neg (not_not.mpr hlength), State.openRecord_of_record hk hr (by rw [hstatus]; rfl)]
  dsimp only
  rw [hstatus]
  dsimp only
  rw [State.stepStateReply_congr (State.steps_testRunEnd _), State.stepStateReply_setRecord, stepStateBody_parked rfl]
  rfl

theorem stepParkOwner_parked {p : ParkReasons} (hlength : body.length = 2) (hk : (word16At body 0).toNat = k.val)
    (hr : s.recordAt k = some r) (hstatus : r.status = .parked p) :
    stepParkOwner body s =
      (s.setRecord k { r with status := .parked { requested := true, nail := p.nail } },
        .reply .ok (bytesOf16 k.val ++ [3, byteOf (1 + 2 * p.nail.toNat)])) := by
  unfold stepParkOwner
  rw [if_neg (not_not.mpr hlength), State.openRecord_of_record hk hr (by rw [hstatus]; rfl)]
  dsimp only
  rw [hstatus]
  dsimp only
  rw [State.stepStateReply_setRecord, stepStateBody_parked rfl]
  rfl

theorem stepParkOwner_held {p : Bool} {d : Option StepEdit} (hlength : body.length = 2) (hk : (word16At body 0).toNat = k.val)
    (hr : s.recordAt k = some r) (hstatus : r.status = .held p d false) :
    stepParkOwner body s =
      (s.setRecord k { r with status := .held true d false }, .reply .deferred (bytesOf16 k.val ++ [2, 1])) := by
  unfold stepParkOwner
  rw [if_neg (not_not.mpr hlength), State.openRecord_of_record hk hr (by rw [hstatus]; rfl)]
  dsimp only
  rw [hstatus]
  dsimp only
  rw [State.stepStateReply_setRecord, stepStateBody_held rfl]
  rfl

theorem stepUnparkOwner_ready (hlength : body.length = 2) (hk : (word16At body 0).toNat = k.val)
    (hr : s.recordAt k = some r) (hstatus : r.status = .ready) :
    stepUnparkOwner body s = (s, .reply .ok (bytesOf16 k.val ++ [1, 0])) := by
  unfold stepUnparkOwner
  rw [if_neg (not_not.mpr hlength), State.openRecord_of_record hk hr (by rw [hstatus]; rfl)]
  dsimp only
  rw [hstatus]
  dsimp only
  rw [State.stepStateReply_of_record hr, stepStateBody_ready hstatus]

theorem stepUnparkOwner_held {p : Bool} {d : Option StepEdit} (hlength : body.length = 2)
    (hk : (word16At body 0).toNat = k.val) (hr : s.recordAt k = some r) (hstatus : r.status = .held p d false) :
    stepUnparkOwner body s =
      (s.setRecord k { r with status := .held false d false }, .reply .ok (bytesOf16 k.val ++ [2, 0])) := by
  unfold stepUnparkOwner
  rw [if_neg (not_not.mpr hlength), State.openRecord_of_record hk hr (by rw [hstatus]; rfl)]
  dsimp only
  rw [hstatus]
  dsimp only
  rw [State.stepStateReply_setRecord, stepStateBody_held rfl]
  rfl

theorem stepUnparkOwner_of_nail_only {p : ParkReasons} (hlength : body.length = 2)
    (hk : (word16At body 0).toNat = k.val) (hr : s.recordAt k = some r) (hstatus : r.status = .parked p)
    (hp : p.requested = false) : stepUnparkOwner body s = (s, refuse .nailRetired) := by
  unfold stepUnparkOwner
  rw [if_neg (not_not.mpr hlength), State.openRecord_of_record hk hr (by rw [hstatus]; rfl)]
  dsimp only
  rw [hstatus]
  dsimp only
  rw [if_neg (by rw [hp]; decide)]

/-- A record that only the NAIL reason keeps parked stays so; without it the record is READY, a dispatch opportunity. -/
theorem stepUnparkOwner_requested {p : ParkReasons} (hlength : body.length = 2)
    (hk : (word16At body 0).toNat = k.val) (hr : s.recordAt k = some r) (hstatus : r.status = .parked p)
    (hp : p.requested = true) :
    stepUnparkOwner body s =
      (if p.nail then
        (s.setRecord k { r with status := .parked { requested := false, nail := true } },
          .reply .ok (bytesOf16 k.val ++ [3, 2]))
      else
        ((s.setRecord k { r with status := .ready }).reportOpportunity, .reply .ok (bytesOf16 k.val ++ [1, 0]))) := by
  unfold stepUnparkOwner
  rw [if_neg (not_not.mpr hlength), State.openRecord_of_record hk hr (by rw [hstatus]; rfl)]
  dsimp only
  rw [hstatus]
  dsimp only
  rw [if_pos hp]
  cases hnail : p.nail with
  | true =>
    have hof : StepStatus.ofReasons { requested := false, nail := true } = .parked { requested := false, nail := true } := rfl
    simp only [hof, reduceCtorEq, if_false, if_true, State.stepStateReply_setRecord]
    rfl
  | false =>
    have hof : StepStatus.ofReasons { requested := false, nail := false } = .ready := rfl
    simp only [hof, if_true, Bool.false_eq_true, if_false]
    rw [State.stepStateReply_congr (State.reportOpportunity_steps _), State.stepStateReply_setRecord, stepStateBody_ready rfl]

/-! ## STEP RETIRE -/

theorem stepRetireOwner_of_closed (hlength : body.length = 2)
    (h : ∀ k : Slot, (word16At body 0).toNat = k.val → s.closedSlot k) :
    stepRetireOwner body s = (s, refuse .noSuchStep) := by
  unfold stepRetireOwner
  rw [if_neg (not_not.mpr hlength), State.openRecord_of_closed h]

theorem stepRetireOwner_held {p : Bool} {d : Option StepEdit} (hlength : body.length = 2)
    (hk : (word16At body 0).toNat = k.val) (hr : s.recordAt k = some r) (hstatus : r.status = .held p d false) :
    stepRetireOwner body s =
      (s.setRecord k { r with status := .held false none true }, .reply .deferred (bytesOf16 k.val ++ [2, 0])) := by
  unfold stepRetireOwner
  rw [if_neg (not_not.mpr hlength), State.openRecord_of_record hk hr (by rw [hstatus]; rfl)]
  dsimp only
  rw [hstatus]
  dsimp only
  rw [State.stepStateReply_setRecord, stepStateBody_held rfl]
  rfl

theorem State.slotAt_freeSlot (s : State) (k : Slot) (r : StepRecord) (j : Slot) :
    (s.freeSlot k r).slotAt j = if j = k then { runMark := (s.slotAt k).runMark, record := none } else s.slotAt j := by
  unfold State.freeSlot
  rw [State.slotAt_setSlot, State.slotAt_lowerRefs]

theorem State.nailAt_freeSlot (s : State) (k : Slot) {r : StepRecord} (h : r.program.nails.toList.Nodup) (n : NailNo) :
    (s.freeSlot k r).nailAt n =
      { s.nailAt n with refCount := (s.nailAt n).refCount - (if r.program.nails.names n then 1 else 0) } := by
  unfold State.freeSlot
  rw [State.nailAt_setSlot, State.nailAt_lowerRefs, NailList.count_toList _ h]

theorem stepRetireOwner_free (hlength : body.length = 2) (hk : (word16At body 0).toNat = k.val)
    (hr : s.recordAt k = some r) (hheld : r.status.isHeld = false) :
    stepRetireOwner body s = ((s.freeSlot k r).testRunEnd, .reply .ok (bytesOf16 k.val ++ [0, 0])) := by
  have hreply : (s.freeSlot k r).testRunEnd.stepStateReply k = bytesOf16 k.val ++ [0, 0] := by
    rw [State.stepStateReply_congr (State.steps_testRunEnd _)]
    unfold State.stepStateReply
    rw [State.slotAt_freeSlot, if_pos rfl, stepStateBody_free]
  unfold stepRetireOwner
  cases hstatus : r.status with
  | held p d q => rw [hstatus] at hheld; cases hheld
  | ready | parked p =>
    rw [if_neg (not_not.mpr hlength), State.openRecord_of_record hk hr (by rw [hstatus]; rfl)]
    dsimp only
    rw [hstatus]
    dsimp only
    rw [hreply]

end

/-! ## The obligations -/

/-- A record written into a slot leaves the others. -/
theorem State.otherSlotsSame_setRecord (s : State) (k : Slot) (r : StepRecord) : OtherSlotsSame s (s.setRecord k r) k :=
  fun j hj => by rw [State.slotAt_setRecord, if_neg hj]

/-- Settles O18. -/
theorem stepParkAndUnparkByState : Obligations.StepParkAndUnparkByState := by
  refine ⟨fun s f k htakes hlength hk => ⟨fun r hr hstatus => ⟨?_, ?_⟩, fun r p hr hstatus => ⟨?_, fun hp => ?_, fun hp => ?_⟩,
    fun r p d hr hstatus => ⟨?_, ?_⟩, fun hclosed => ⟨?_, ?_⟩⟩, fun s f htakes hlength hk => ⟨?_, ?_⟩⟩
  · have hchanged := TablesChanged.setRecord (s.taken f) k { r with status := .parked { requested := true, nail := false } }
    refine ⟨_, exec_of_reply rfl htakes (by omega) (stepParkOwner_ready (s := s.taken f) hlength hk hr hstatus), ?_,
        ?_, ?_, ?_, ?_,
      ?_, ?_, rfl⟩
    · rw [State.slotAt_replied, State.slotAt_congr (State.steps_testRunEnd _), State.slotAt_setRecord_self]
      rfl
    · intro j hj
      rw [State.slotAt_replied, State.slotAt_congr (State.steps_testRunEnd _)]
      exact State.otherSlotsSame_setRecord (s.taken f) k _ j hj
    · exact State.nails_testRunEnd _
    · exact State.exam_testRunEnd _
    · exact hchanged.tested.replied _ _ _ _
    · exact hchanged.links_testRunEnd
    · exact hchanged.settings_testRunEnd
  · exact exec_of_reply rfl htakes (by omega) (stepUnparkOwner_ready (s := s.taken f) hlength hk hr hstatus)
  · exact exec_of_reply rfl htakes (by omega) (stepParkOwner_parked (s := s.taken f) hlength hk hr hstatus)
  · have howner := stepUnparkOwner_requested (s := s.taken f) hlength hk hr hstatus hp
    cases hnail : p.nail with
    | true =>
      rw [hnail, if_pos rfl] at howner
      have hchanged := TablesChanged.setRecord (s.taken f) k { r with status := .parked { requested := false, nail := true } }
      exact ⟨_, exec_of_reply rfl htakes (by omega) howner, State.slotAt_setRecord_self _ _ _,
        State.otherSlotsSame_setRecord (s.taken f) k _, rfl, rfl, rfl, rfl, hchanged.links, hchanged.settings, rfl⟩
    | false =>
      rw [hnail, if_neg (by decide)] at howner
      have hchanged := TablesChanged.setRecord (s.taken f) k { r with status := .ready }
      refine ⟨_, exec_of_reply rfl htakes (by omega) howner, ?_, fun j hj => ?_, State.reportOpportunity_nails _,
        State.reportOpportunity_run _, State.reportOpportunity_latches _, ?_, hchanged.links.trans (.report _),
        hchanged.settings.trans (.report _), rfl⟩
      · exact (State.slotAt_congr (State.reportOpportunity_steps _) k).trans (State.slotAt_setRecord_self _ _ _)
      · exact (State.slotAt_congr (State.reportOpportunity_steps _) j).trans
          (State.otherSlotsSame_setRecord (s.taken f) k _ j hj)
      · show (State.reportOpportunity _).exam = _
        rw [State.reportOpportunity_eq]
        rfl
  · exact exec_of_reply rfl htakes (by omega)
      (stepUnparkOwner_of_nail_only (s := s.taken f) hlength hk hr hstatus (by rw [hp]))
  · exact exec_of_reply rfl htakes (by omega) (stepParkOwner_held (s := s.taken f) hlength hk hr hstatus)
  · exact exec_of_reply rfl htakes (by omega) (stepUnparkOwner_held (s := s.taken f) hlength hk hr hstatus)
  · exact exec_of_reply rfl htakes (by omega)
      (stepParkOwner_of_closed (s := s.taken f) hlength (State.closedSlot_of_only hk hclosed))
  · exact exec_of_reply rfl htakes (by omega)
      (stepUnparkOwner_of_closed (s := s.taken f) hlength (State.closedSlot_of_only hk hclosed))
  · exact exec_of_reply rfl htakes (by omega) (stepParkOwner_of_closed (s := s.taken f) hlength fun k hk' => by omega)
  · exact exec_of_reply rfl htakes (by omega) (stepUnparkOwner_of_closed (s := s.taken f) hlength fun k hk' => by omega)

/-- Settles O19. -/
theorem stepRetireFreesOrPends : Obligations.StepRetireFreesOrPends := by
  refine ⟨fun s f k r htakes hlength hk hr => ⟨fun hheld hnodup => ?_, fun p d hstatus => ?_, fun p d hstatus => ?_⟩,
    fun s f htakes hlength hfree => ?_⟩
  · have hchanged := TablesChanged.freeSlot (s.taken f) k r
    have howner := stepRetireOwner_free (s := s.taken f) hlength hk hr hheld
    refine ⟨_, exec_of_reply rfl htakes (by omega) howner, ?_, fun j hj => ?_, fun n => ?_, ?_, ?_, ?_, ?_, ?_⟩
    · rw [State.slotAt_replied, State.slotAt_congr (State.steps_testRunEnd _), State.slotAt_freeSlot, if_pos rfl]
      rfl
    · rw [State.slotAt_replied, State.slotAt_congr (State.steps_testRunEnd _), State.slotAt_freeSlot, if_neg hj]
      rfl
    · rw [State.nailAt_replied, State.nailAt_congr (State.nails_testRunEnd _), State.nailAt_freeSlot _ _ hnodup]
      rfl
    · rw [State.exam_replied, State.exam_testRunEnd, hchanged.exam]
      rfl
    · exact hchanged.tested.replied _ _ _ _
    · exact hchanged.links_testRunEnd.replied _ _ _ _
    · exact hchanged.settings_testRunEnd.replied _ _ _ _
    · exact State.port_replied _ _ _ _
  · exact exec_of_reply rfl htakes (by omega) (stepRetireOwner_held (s := s.taken f) hlength hk hr hstatus)
  · exact exec_of_reply rfl htakes (by omega) (stepRetireOwner_of_closed (s := s.taken f) hlength
      (State.closedSlot_of_only hk (.inr ⟨r, p, d, hr, hstatus⟩)))
  · exact exec_of_reply rfl htakes (by omega)
      (stepRetireOwner_of_closed (s := s.taken f) hlength fun k hk => .inl (hfree k hk))

end Sys2Proof.Machine
end

section
/-! CERTIFICATE. STEP WRITE (R11 to R13), with the numbered checks and the layouts that STEP EDIT shares (section 10.3, R188,
R189). -/

namespace Sys2Proof.Machine

/-! ## Numbered checks (R11, R15) -/

/-- Checks numbered as in R11, each with its refusal. -/
def numberedChecks (fails : Nat → Bool) : List (Bool × Status) := checkRefusals.map (fun c => (fails c.1, c.2))

theorem firstFailing_split {fails : Nat → Bool} {st : Status} (l : List (Nat × Status))
    (h : firstFailing (l.map (fun c => (fails c.1, c.2))) = some st) :
    ∃ pre c post, l = pre ++ c :: post ∧ fails c.1 = true ∧ c.2 = st ∧ ∀ b ∈ pre, fails b.1 = false := by
  induction l with
  | nil => cases h
  | cons x l ih =>
    rw [List.map_cons, firstFailing] at h
    split at h
    · rename_i hx
      exact ⟨[], x, l, rfl, hx, Option.some.inj h, nofun⟩
    · rename_i hx
      obtain ⟨pre, c, post, rfl, hfails, hst, hpre⟩ := ih h
      refine ⟨x :: pre, c, post, rfl, hfails, hst, fun b hb => ?_⟩
      rcases List.mem_cons.mp hb with rfl | hb
      · simpa using hx
      · exact hpre b hb

theorem checkRefusals_sorted : checkRefusals.Pairwise (fun a b => a.1 < b.1) := by decide

section
variable {fails : Nat → Bool} {passes : Nat → Prop}

/-- The first check that fails, as it is coded and as it is stated. -/
theorem firstFailing_numbered (hpasses : ∀ c ∈ checkRefusals, fails c.1 = false ↔ passes c.1) {st : Status}
    (h : firstFailing (numberedChecks fails) = some st) : FirstFailing passes st := by
  obtain ⟨pre, c, post, hsplit, hfails, hst, hpre⟩ := firstFailing_split checkRefusals h
  have hmem (b : Nat × Status) (hb : b ∈ pre ++ c :: post) : b ∈ checkRefusals := hsplit ▸ hb
  have hsorted := checkRefusals_sorted
  rw [hsplit, List.pairwise_append, List.pairwise_cons] at hsorted
  obtain ⟨-, ⟨hpost, -⟩, -⟩ := hsorted
  refine ⟨c, hmem c (by simp), hst, fun hp => ?_, fun b hb hlt => ?_⟩
  · rw [(hpasses c (hmem c (by simp))).mpr hp] at hfails
    cases hfails
  · refine (hpasses b hb).mp ?_
    rw [hsplit, List.mem_append, List.mem_cons] at hb
    rcases hb with hb | rfl | hb
    · exact hpre b hb
    · exact absurd hlt (lt_irrefl _)
    · exact absurd (hpost b hb) (by omega)

theorem firstFailing_numbered_none (hpasses : ∀ c ∈ checkRefusals, fails c.1 = false ↔ passes c.1) :
    firstFailing (numberedChecks fails) = none ↔ ∀ c ∈ checkRefusals, passes c.1 := by
  rw [firstFailing_eq_none]
  unfold numberedChecks
  rw [List.forall_mem_map]
  exact forall₂_congr hpasses

theorem firstFailing_numbered_iff (hpasses : ∀ c ∈ checkRefusals, fails c.1 = false ↔ passes c.1) (st : Status) :
    firstFailing (numberedChecks fails) = some st ↔ FirstFailing passes st := by
  refine ⟨firstFailing_numbered hpasses, fun h => ?_⟩
  cases hfirst : firstFailing (numberedChecks fails) with
  | none =>
    obtain ⟨c, hc, -, hno, -⟩ := h
    exact absurd ((firstFailing_numbered_none hpasses).mp hfirst c hc) hno
  | some st' => rw [FirstFailing.unique (firstFailing_numbered hpasses hfirst) h]

end

/-- Checks 2 to 4 of R11 on a nail list as given, by number. -/
def State.namesFail (s : State) (g : NailNames) : Nat → Bool
  | 2 => g.numbers.any (fun w => decide (4095 < w.toNat))
  | 3 => !decide g.numbers.Nodup
  | _ => s.placesCommonHigh g.toNailList

/-- Checks 6 to 8 of R11 on a limits group, by number. -/
def limitsFail (k : StepKind) (g : LimitsGroup) : Nat → Bool
  | 6 => !relativeInEffect k g && decide (g.hi.toInt < g.lo.toInt)
  | 7 => relativeInEffect k g && decide (g.nominal.toInt ≤ 0)
  | _ => relativeInEffect k g && (decide (1000 < g.tolLo.toNat) || decide (9999 < g.tolHi.toNat))

theorem relativeInEffect_iff (k : StepKind) (g : LimitsGroup) :
    relativeInEffect k g = true ↔ g.relative = true ∧ k = .measure := by
  simp [relativeInEffect]

theorem State.namesFail_common {s : State} {g : NailNames} :
    s.placesCommonHigh g.toNailList = false ↔ (s.nailAt (nailOf g.srcHi)).common = false
      ∧ g.snsHi.all (fun w => !(s.nailAt (nailOf w)).common) = true := by
  unfold State.placesCommonHigh NailNames.toNailList
  cases g.snsHi <;> simp

theorem State.namesFail_iff (s : State) (g : NailNames) :
    (s.namesFail g 2 = false ↔ s.namesCheck g 2) ∧ (s.namesFail g 3 = false ↔ s.namesCheck g 3)
      ∧ (s.namesFail g 4 = false ↔ s.namesCheck g 4) := by
  refine ⟨?_, ?_, ?_⟩
  · simp [State.namesFail, State.namesCheck]
  · simp [State.namesFail, State.namesCheck]
  · simpa [State.namesFail, State.namesCheck] using State.namesFail_common

theorem limitsFail_iff (k : StepKind) (g : LimitsGroup) :
    (limitsFail k g 6 = false ↔ limitsCheck k g 6) ∧ (limitsFail k g 7 = false ↔ limitsCheck k g 7)
      ∧ (limitsFail k g 8 = false ↔ limitsCheck k g 8) := by
  have heffect := relativeInEffect_iff k g
  unfold limitsFail limitsCheck
  cases hrel : relativeInEffect k g with
  | true =>
    have hboth := heffect.mp hrel
    simp [hboth]
  | false =>
    have hnot : ¬ (g.relative = true ∧ k = .measure) := fun h => by rw [heffect.mpr h] at hrel; cases hrel
    simp [hnot]

/-! ## The checks of STEP WRITE -/

/-- The checks of R11 on a STEP WRITE body, by number. -/
def State.writeFails (s : State) (body : List Byte) : Nat → Bool
  | 1 => decide (body.length < 3) || decide (4 < (readWrite body).guardCount)
      || decide (body.length ≠ (readWrite body).impliedLength)
  | 2 => s.namesFail (readWrite body).names 2
  | 3 => s.namesFail (readWrite body).names 3
  | 4 => s.namesFail (readWrite body).names 4
  | 5 => decide (6 < (readWrite body).rangeByte.toNat)
  | 6 => limitsFail (readWrite body).kind (readWrite body).limits 6
  | 7 => limitsFail (readWrite body).kind (readWrite body).limits 7
  | 8 => limitsFail (readWrite body).kind (readWrite body).limits 8
  | _ => decide ((readWrite body).timing.aperture = 0)

theorem State.writeChecks_eq (s : State) (body : List Byte) :
    s.writeChecks body (readWrite body) = numberedChecks (s.writeFails body) := rfl

theorem State.writeFails_iff (s : State) (body : List Byte) :
    ∀ c ∈ checkRefusals, s.writeFails body c.1 = false ↔ s.writeCheck body c.1 := by
  obtain ⟨h2, h3, h4⟩ := s.namesFail_iff (readWrite body).names
  obtain ⟨h6, h7, h8⟩ := limitsFail_iff (readWrite body).kind (readWrite body).limits
  simp only [checkRefusals, List.forall_mem_cons, State.writeFails, State.writeCheck]
  refine ⟨?_, ?_, ?_, ?_, ?_, ?_, ?_, ?_, ?_, nofun⟩
  · simp [State.namesCheck, limitsCheck, and_assoc]
  · rw [h2]; simp [limitsCheck]
  · rw [h3]; simp [limitsCheck]
  · rw [h4]; simp [limitsCheck]
  · simp [State.namesCheck, limitsCheck]
  · rw [h6]; simp [State.namesCheck]
  · rw [h7]; simp [State.namesCheck]
  · rw [h8]; simp [State.namesCheck]
  · simp [State.namesCheck, limitsCheck]

theorem State.writeChecks_none (s : State) (body : List Byte) :
    firstFailing (s.writeChecks body (readWrite body)) = none ↔ s.writeAccepted body := by
  rw [s.writeChecks_eq]
  exact firstFailing_numbered_none (s.writeFails_iff body)

theorem State.writeChecks_some (s : State) (body : List Byte) (st : Status) :
    firstFailing (s.writeChecks body (readWrite body)) = some st ↔ FirstFailing (s.writeCheck body) st := by
  rw [s.writeChecks_eq]
  exact firstFailing_numbered_iff (s.writeFails_iff body) st

/-- An accepted body is short enough for the port. -/
theorem State.writeAccepted_length {s : State} {body : List Byte} (h : s.writeAccepted body) : body.length ≤ 60 := by
  obtain ⟨-, hguards, hlength⟩ := (h (1, .badLength) (by simp [checkRefusals])).1 rfl
  have himplied : (readWrite body).impliedLength =
      28 + 2 * (2 + ((bitAt body 2 2).toNat + (bitAt body 2 3).toNat) + (readWrite body).guardCount) := rfl
  have hhi := Bool.toNat_le (bitAt body 2 2)
  have hlo := Bool.toNat_le (bitAt body 2 3)
  omega

/-! ## The choice of a slot (R12) -/

theorem State.firstFree_eq {s : State} {k : Slot} (hfree : s.recordAt k = none) (fuel a : Nat) (ha : a ≤ k.val)
    (hfuel : k.val < a + fuel) (hused : ∀ j : Slot, a ≤ j.val → j < k → s.recordAt j ≠ none) :
    s.firstFree fuel a = some k := by
  induction fuel generalizing a with
  | zero => omega
  | succ fuel ih =>
    have hslot (j : Slot) (hj : j.val = a) : slotOf (BitVec.ofNat 16 a) = some j := by
      rw [slotOf_eq_some, BitVec.toNat_ofNat, hj]
      exact Nat.mod_eq_of_lt (by omega)
    unfold State.firstFree
    by_cases hk : k.val = a
    · rw [hslot k hk]
      simp [hfree]
    · have hlt : a < 2048 := by omega
      rw [hslot ⟨a, hlt⟩ rfl]
      have hsome := hused ⟨a, hlt⟩ le_rfl (Fin.mk_lt_of_lt_val (by omega))
      simp only [Option.isNone_iff_eq_none, hsome, if_false]
      exact ih (a + 1) (by omega) (by omega) fun j hj => hused j (by omega)

theorem State.firstFree_none {s : State} (h : ∀ k, s.recordAt k ≠ none) (fuel a : Nat) : s.firstFree fuel a = none := by
  induction fuel generalizing a with
  | zero => rfl
  | succ fuel ih =>
    unfold State.firstFree
    split
    · rfl
    · rename_i k _
      simp only [Option.isNone_iff_eq_none, h k, if_false]
      exact ih (a + 1)

section
variable {s : State} {w : BitVec 16} {k : Slot}

theorem ne_any_of_slot (hw : w.toNat = k.val) : w ≠ 0xFFFF := by
  rintro rfl
  have := k.isLt
  simp at hw
  omega

theorem State.chooseSlot_named (hw : w.toNat = k.val) (hfree : s.recordAt k = none) : s.chooseSlot w = .inr k := by
  unfold State.chooseSlot
  rw [if_neg (ne_any_of_slot hw), slotOf_eq_some.mpr hw]
  simp [hfree]

theorem State.chooseSlot_any (hfree : s.recordAt k = none) (hused : ∀ j, j < k → s.recordAt j ≠ none) :
    s.chooseSlot 0xFFFF = .inr k := by
  unfold State.chooseSlot
  rw [if_pos rfl, State.firstFree_eq hfree 2048 0 (Nat.zero_le _) (by omega) fun j _ => hused j]

theorem State.chooseSlot_inUse (hw : w.toNat = k.val) (hused : s.recordAt k ≠ none) : s.chooseSlot w = .inl .slotInUse := by
  unfold State.chooseSlot
  rw [if_neg (ne_any_of_slot hw), slotOf_eq_some.mpr hw]
  simp [Option.isSome_iff_ne_none, hused]

theorem State.chooseSlot_beyond (hw : 2048 ≤ w.toNat) (hany : w ≠ 0xFFFF) : s.chooseSlot w = .inl .noSuchStep := by
  unfold State.chooseSlot
  rw [if_neg hany]
  have hnone : slotOf w = none := dif_neg (by omega)
  rw [hnone]

theorem State.chooseSlot_full (h : ∀ k, s.recordAt k ≠ none) : s.chooseSlot 0xFFFF = .inl .tableFull := by
  unfold State.chooseSlot
  rw [if_pos rfl, State.firstFree_none h]

end

/-! ## The record stored (R13) -/

theorem StepStatus.ofReasons_nail (b : Bool) :
    StepStatus.ofReasons { requested := false, nail := b } =
      if b then .parked { requested := false, nail := true } else .ready := by
  cases b <;> rfl

theorem State.anyRetired_iff (s : State) (l : NailList) :
    s.anyRetired l = true ↔ ∃ n ∈ l.toList, (s.nailAt n).state = .retired := by
  simp [State.anyRetired]

section
variable (s : State) (k : Slot) (p : StepProgram)

/-- The state of a STEP WRITE before the opportunity is reported. -/
def State.stored : State :=
  (s.raiseRefs p.nails.toList).setRecord k
    { program := p, stats := StepStats.fresh, status := .ofReasons { requested := false, nail := s.anyRetired p.nails } }

theorem State.storeStep_eq :
    s.storeStep k p = if s.anyRetired p.nails then s.stored k p else (s.stored k p).reportOpportunity := by
  unfold State.storeStep State.stored
  dsimp only
  rw [StepStatus.ofReasons_nail]
  cases s.anyRetired p.nails <;> rfl

theorem TablesChanged.stored : TablesChanged s (s.stored k p) := (raiseRefs s _).trans (setRecord _ k _)

theorem State.steps_storeStep : (s.storeStep k p).steps = (s.stored k p).steps := by
  rw [State.storeStep_eq]
  split
  · rfl
  · exact State.reportOpportunity_steps _

theorem State.nails_storeStep : (s.storeStep k p).nails = (s.stored k p).nails := by
  rw [State.storeStep_eq]
  split
  · rfl
  · exact State.reportOpportunity_nails _

theorem State.slotAt_storeStep (j : Slot) :
    (s.storeStep k p).slotAt j =
      if j = k then
        { runMark := (s.slotAt k).runMark
          record := some
            { program := p, stats := StepStats.fresh
              status := if s.anyRetired p.nails then .parked { requested := false, nail := true } else .ready } }
      else s.slotAt j := by
  rw [State.slotAt_congr (s.steps_storeStep k p), State.stored, State.slotAt_setRecord, State.slotAt_raiseRefs,
    StepStatus.ofReasons_nail, State.slotAt_raiseRefs]

theorem State.nailAt_storeStep (h : p.nails.toList.Nodup) (n : NailNo) :
    (s.storeStep k p).nailAt n =
      { s.nailAt n with refCount := (s.nailAt n).refCount + (if p.nails.names n then 1 else 0) } := by
  rw [State.nailAt_congr (s.nails_storeStep k p), State.stored, State.nailAt_setRecord, State.nailAt_raiseRefs,
    NailList.count_toList _ h]

theorem State.exam_storeStep : (s.storeStep k p).exam = examAfter (!s.anyRetired p.nails) s.run.state s.exam := by
  have hchanged := TablesChanged.stored s k p
  rw [State.storeStep_eq]
  cases s.anyRetired p.nails with
  | true => exact hchanged.exam
  | false =>
    show (State.reportOpportunity _).exam = _
    rw [State.reportOpportunity_eq, hchanged.run, hchanged.exam]
    rfl

/-- What a STEP WRITE leaves of the rest. -/
theorem State.storeStep_rest :
    (s.storeStep k p).run = s.run ∧ (s.storeStep k p).latches = s.latches ∧ SameLinks s (s.storeStep k p)
      ∧ SameSettings s (s.storeStep k p) := by
  have hchanged := TablesChanged.stored s k p
  rw [State.storeStep_eq]
  split
  · exact ⟨hchanged.run, hchanged.latches, hchanged.links, hchanged.settings⟩
  · exact ⟨(State.reportOpportunity_run _).trans hchanged.run, (State.reportOpportunity_latches _).trans hchanged.latches,
      hchanged.links.trans (.report _), hchanged.settings.trans (.report _)⟩

theorem State.stepStateReply_storeStep :
    (s.storeStep k p).stepStateReply k = bytesOf16 k.val ++ (if s.anyRetired p.nails then [3, 2] else [1, 0]) := by
  unfold State.stepStateReply
  rw [State.slotAt_storeStep, if_pos rfl]
  cases s.anyRetired p.nails with
  | true => exact stepStateBody_parked (p := { requested := false, nail := true }) (by rfl)
  | false => exact stepStateBody_ready (by rfl)

end

theorem stepWriteOwner_of_slot {body : List Byte} {s : State} {k : Slot} (h : s.writeAccepted body)
    (hslot : s.chooseSlot (word16At body 0) = .inr k) :
    stepWriteOwner body s = (s.storeStep k (readWrite body).program,
      .reply .ok ((s.storeStep k (readWrite body).program).stepStateReply k)) := by
  have hchoice : s.chooseSlot (readWrite body).slot = .inr k := hslot
  unfold stepWriteOwner
  dsimp only
  rw [(s.writeChecks_none body).mpr h, hchoice]

theorem stepWriteOwner_of_no_slot {body : List Byte} {s : State} {st : Status} (h : s.writeAccepted body)
    (hslot : s.chooseSlot (word16At body 0) = .inl st) : stepWriteOwner body s = (s, refuse st) := by
  have hchoice : s.chooseSlot (readWrite body).slot = .inl st := hslot
  unfold stepWriteOwner
  dsimp only
  rw [(s.writeChecks_none body).mpr h, hchoice]

theorem stepWriteOwner_of_failing {body : List Byte} {s : State} {st : Status} (h : FirstFailing (s.writeCheck body) st) :
    stepWriteOwner body s = (s, refuse st) := by
  unfold stepWriteOwner
  dsimp only
  rw [(s.writeChecks_some body st).mpr h]

/-! ## Layouts (section 10.3) -/

/-- The numbers of a nail list stand one after the other. -/
theorem readNails_numbers (body : List Byte) (i : Nat) (hasHi hasLo : Bool) (guards : Nat) :
    (readNails body i hasHi hasLo guards).numbers =
      (List.range (2 + hasHi.toNat + hasLo.toNat + guards)).map (fun j => word16At body (i + 2 * j)) := by
  rw [List.range_add, List.map_append, List.map_map]
  have hguards : (List.range guards).map (fun g => word16At body (i + 4 + 2 * hasHi.toNat + 2 * hasLo.toNat + 2 * g)) =
      (List.range guards).map ((fun j => word16At body (i + 2 * j)) ∘ fun x => 2 + hasHi.toNat + hasLo.toNat + x) := by
    refine List.map_congr_left fun g _ => ?_
    rw [Function.comp_apply]
    congr 1
    omega
  rw [← hguards]
  cases hasHi <;> cases hasLo <;> rfl

theorem readNails_at (body : List Byte) (i : Nat) (hasHi hasLo : Bool) (guards : Nat) :
    NamesAt body i hasHi hasLo guards (readNails body i hasHi hasLo guards) := by
  have hnumbers := readNails_numbers body i hasHi hasLo guards
  have hhi : (readNails body i hasHi hasLo guards).snsHi.isSome = hasHi := by cases hasHi <;> rfl
  have hlo : (readNails body i hasHi hasLo guards).snsLo.isSome = hasLo := by cases hasLo <;> rfl
  have hguards : (readNails body i hasHi hasLo guards).guards.length = guards := by simp [readNails]
  refine ⟨hhi, hlo, hguards, by rw [hnumbers]; simp, fun j hj => ?_, fun hall => ⟨?_, ?_, ?_, ?_⟩⟩
  · rw [hnumbers] at hj ⊢
    rw [List.getElem?_map, List.getElem?_range (by simpa using hj)]
    rfl
  · rw [NailNames.toList_toNailList, List.map_map]
    refine List.map_congr_left fun w hw => nailOf_val ?_
    simpa using List.all_eq_true.mp hall w hw
  · simpa [NailNames.toNailList] using hhi
  · simpa [NailNames.toNailList] using hlo
  · simpa [NailNames.toNailList] using hguards

theorem readTiming_at (body : List Byte) (rangeAt restAt : Nat) :
    TimingAt body rangeAt restAt (readTiming body rangeAt restAt) := by
  refine ⟨fun h => ?_, ?_, ?_, rfl, rfl⟩
  · exact (Fin.val_ofNat ..).trans (Nat.mod_eq_of_lt (by omega))
  · simp [readTiming, BitVec.extractLsb'_toNat]
  · simp [readTiming, BitVec.extractLsb'_toNat]

theorem limitsKept_ofGroup (k : StepKind) (g : LimitsGroup) : LimitsKept k g (Limits.ofGroup k g) := by
  unfold LimitsKept Limits.ofGroup
  simp only [relativeInEffect_iff]

theorem storedRetry_val (k : StepKind) (b : Byte) :
    (storedRetry k b).val = (if k = .contact then 0 else min 2 b.toNat) := by
  cases k with
  | contact => rfl
  | measure =>
    rw [if_neg (by decide)]
    unfold storedRetry
    dsimp only
    split
    · dsimp only; omega
    · rename_i h
      show 2 = _
      omega

theorem readWrite_at (body : List Byte) : WriteRead body (readWrite body) := by
  have hguards : (readWrite body).guardCount = (byteAt body 2).toNat / 16 % 8 := by
    simp [readWrite, BitVec.extractLsb'_toNat, Nat.shiftRight_eq_div_pow]
  refine ⟨rfl, ?_, rfl, hguards, rfl, rfl, rfl, readTiming_at body 5 7, rfl, readNails_at body 28 _ _ _, rfl, rfl, rfl, rfl,
    rfl, rfl, storedRetry_val _ _, limitsKept_ofGroup _ _⟩
  unfold readWrite
  cases bitAt body 2 0 <;> simp

/-- Settles O16. -/
theorem stepWriteStoresRecord : Obligations.StepWriteStoresRecord := by
  refine ⟨fun s f htakes => ⟨fun k hchecks hfree hslot => ?_, fun hchecks hused => ?_, fun hchecks hbeyond hany => ?_,
    fun hchecks hany hfull => ?_, fun st hlength hfirst => ?_, ?_⟩, readWrite_at, rfl,
    fun s l => ⟨s.anyRetired_iff l, l.names_iff⟩⟩
  · have hchoice : (s.taken f).chooseSlot (word16At f.body 0) = .inr k := by
      rcases hslot with hk | ⟨hany, hused⟩
      · exact State.chooseSlot_named hk hfree
      · rw [hany]; exact State.chooseSlot_any hfree hused
    have hnodup : (readWrite f.body).program.nails.toList.Nodup := by
      have hsound := State.writeChecks_sound ((s.writeChecks_none f.body).mpr hchecks)
      simp only [NailList.sound, Bool.and_eq_true, decide_eq_true_eq] at hsound
      exact hsound.1
    obtain ⟨hrun, hlatches, hlinks, hsettings⟩ := (s.taken f).storeStep_rest k (readWrite f.body).program
    refine ⟨_, exec_of_reply rfl htakes (State.writeAccepted_length hchecks)
      (stepWriteOwner_of_slot (s := s.taken f) hchecks hchoice), ?_, fun j hj => ?_, fun n => ?_, ?_, ?_, ?_, ?_, ?_, ?_⟩
    · rw [State.slotAt_replied, State.slotAt_storeStep, if_pos rfl]
      rfl
    · rw [State.slotAt_replied, State.slotAt_storeStep, if_neg hj]
      rfl
    · rw [State.nailAt_replied, State.nailAt_storeStep _ _ _ hnodup]
      rfl
    · rw [State.port_replied, State.stepStateReply_storeStep]
      rfl
    · rw [State.exam_replied, State.exam_storeStep]
      rfl
    · rw [State.run_replied, hrun]
      rfl
    · rw [State.latches_replied, hlatches]
      rfl
    · exact hlinks.replied _ _ _ _
    · exact hsettings.replied _ _ _ _
  · obtain ⟨k, hk, hused⟩ := hused
    exact exec_of_reply rfl htakes (State.writeAccepted_length hchecks)
      (stepWriteOwner_of_no_slot (s := s.taken f) hchecks (State.chooseSlot_inUse hk hused))
  · exact exec_of_reply rfl htakes (State.writeAccepted_length hchecks)
      (stepWriteOwner_of_no_slot (s := s.taken f) hchecks (State.chooseSlot_beyond hbeyond hany))
  · refine exec_of_reply rfl htakes (State.writeAccepted_length hchecks)
      (stepWriteOwner_of_no_slot (s := s.taken f) hchecks ?_)
    rw [hany]
    exact State.chooseSlot_full hfull
  · exact exec_of_reply rfl htakes hlength (stepWriteOwner_of_failing (s := s.taken f) hfirst)
  · cases hfirst : firstFailing (s.writeChecks f.body (readWrite f.body)) with
    | none => exact .inl ((s.writeChecks_none f.body).mp hfirst)
    | some st => exact .inr ⟨st, (s.writeChecks_some f.body st).mp hfirst⟩

end Sys2Proof.Machine
end

section
/-! CERTIFICATE. STEP EDIT (R10, R14 to R17). -/

namespace Sys2Proof.Machine

/-! ## The checks of STEP EDIT (R15) -/

theorem firstFailing_append (a b : List (Bool × Status)) : firstFailing (a ++ b) = (firstFailing a).or (firstFailing b) := by
  induction a with
  | nil => rfl
  | cons x a ih =>
    rw [List.cons_append, firstFailing, firstFailing]
    split
    · rfl
    · exact ih

/-- Checks that are made only for a group present. -/
theorem firstFailing_guarded (present : Bool) (checks : List (Bool × Status)) :
    firstFailing (if present then checks else []) = firstFailing (checks.map (fun c => (present && c.1, c.2))) := by
  cases present with
  | true => simp
  | false =>
    rw [if_neg (by decide)]
    exact ((firstFailing_eq_none _).mpr (by simp)).symm

/-- The checks of R15 on a STEP EDIT body, by number. -/
def State.editFails (s : State) (body : List Byte) (k : StepKind) : Nat → Bool
  | 1 => ((readEdit body).hasNails && decide (4 < (readEdit body).guardCount))
      || decide (body.length ≠ (readEdit body).impliedLength)
  | 2 => (readEdit body).hasNails && s.namesFail (readEdit body).names 2
  | 3 => (readEdit body).hasNails && s.namesFail (readEdit body).names 3
  | 4 => (readEdit body).hasNails && s.namesFail (readEdit body).names 4
  | 5 => (readEdit body).hasTiming && decide (6 < (readEdit body).rangeByte.toNat)
  | 6 => (readEdit body).hasLimits && limitsFail k (readEdit body).limits 6
  | 7 => (readEdit body).hasLimits && limitsFail k (readEdit body).limits 7
  | 8 => (readEdit body).hasLimits && limitsFail k (readEdit body).limits 8
  | _ => (readEdit body).hasTiming && decide ((readEdit body).timing.aperture = 0)

theorem State.editChecks_eq (s : State) (body : List Byte) (k : StepKind) :
    firstFailing (s.editChecks body (readEdit body) k) = firstFailing (numberedChecks (s.editFails body k)) := by
  unfold State.editChecks
  rw [firstFailing_append, firstFailing_append, firstFailing_append, firstFailing_append, firstFailing_guarded,
    firstFailing_guarded, firstFailing_guarded, firstFailing_guarded, ← firstFailing_append, ← firstFailing_append,
    ← firstFailing_append, ← firstFailing_append]
  rfl

theorem State.editFails_iff (s : State) (body : List Byte) (k : StepKind) :
    ∀ c ∈ checkRefusals, s.editFails body k c.1 = false ↔ s.editCheck body k c.1 := by
  obtain ⟨h2, h3, h4⟩ := s.namesFail_iff (readEdit body).names
  obtain ⟨h6, h7, h8⟩ := limitsFail_iff k (readEdit body).limits
  have guarded {present fails : Bool} {passes : Prop} (h : fails = false ↔ passes) :
      (present && fails) = false ↔ (present = true → passes) := by
    cases present <;> simp [h]
  simp only [checkRefusals, List.forall_mem_cons, State.editFails, State.editCheck]
  refine ⟨?_, ?_, ?_, ?_, ?_, ?_, ?_, ?_, ?_, nofun⟩
  · simp [State.namesCheck, limitsCheck]
  · rw [guarded h2]; simp [limitsCheck]
  · rw [guarded h3]; simp [limitsCheck]
  · rw [guarded h4]; simp [limitsCheck]
  · simp [State.namesCheck, limitsCheck]
  · rw [guarded h6]; simp [State.namesCheck]
  · rw [guarded h7]; simp [State.namesCheck]
  · rw [guarded h8]; simp [State.namesCheck]
  · simp [State.namesCheck, limitsCheck]

theorem State.editChecks_none (s : State) (body : List Byte) (k : StepKind) :
    firstFailing (s.editChecks body (readEdit body) k) = none ↔ ∀ c ∈ checkRefusals, s.editCheck body k c.1 := by
  rw [s.editChecks_eq]
  exact firstFailing_numbered_none (s.editFails_iff body k)

theorem State.editChecks_some (s : State) (body : List Byte) (k : StepKind) (st : Status) :
    firstFailing (s.editChecks body (readEdit body) k) = some st ↔ FirstFailing (s.editCheck body k) st := by
  rw [s.editChecks_eq]
  exact firstFailing_numbered_iff (s.editFails_iff body k) st

/-! ## Groups replaced (R14) -/

theorem groupsReplaced_edited (b : EditBody) (r : StepRecord) : GroupsReplaced b r (r.edited b.edit) := by
  refine ⟨rfl, ?_, ?_, ?_, ?_, ?_, ?_⟩
  · cases h : b.hasOrder <;> simp [StepRecord.edited, EditBody.edit, h]
  · cases h : b.hasNails <;> simp [StepRecord.edited, EditBody.edit, h]
  · cases h : b.hasTiming <;> simp [StepRecord.edited, EditBody.edit, h]
  · cases h : b.hasLimits
    · simp [StepRecord.edited, EditBody.edit, h]
    · simpa [StepRecord.edited, EditBody.edit, h] using limitsKept_ofGroup r.program.kind b.limits
  · cases h : b.hasRetry
    · simp [StepRecord.edited, EditBody.edit, h]
    · simpa [StepRecord.edited, EditBody.edit, h] using storedRetry_val r.program.kind b.retryByte
  · cases h : b.hasOffset <;> simp [StepRecord.edited, EditBody.edit, h]

/-! ## An edit taken at once (R16) -/

/-- The record after an edit taken at once. -/
def State.editedRecord (s : State) (r : StepRecord) (e : StepEdit) : StepRecord :=
  { r.edited e with
    status := match e.nails with
      | none => r.status
      | some l => .ofReasons { r.status.reasons with nail := s.anyRetired l } }

section
variable (s : State) (k : Slot) (r : StepRecord) (e : StepEdit)

theorem State.applyEdit_eq :
    s.applyEdit k r e = (s.moveRefs r.program.nails (r.edited e).program.nails).setRecord k (s.editedRecord r e) := by
  unfold State.applyEdit State.editedRecord
  rw [StepRecord.edited_nails]
  split
  · rename_i h
    simp only [h, Option.getD_none, State.moveRefs_self]
    rfl
  · rename_i l h
    simp only [h, Option.getD_some]

theorem State.slotAt_applyEdit (j : Slot) :
    (s.applyEdit k r e).slotAt j =
      if j = k then { s.slotAt k with record := some (s.editedRecord r e) } else s.slotAt j := by
  rw [State.applyEdit_eq, State.slotAt_setRecord, State.slotAt_moveRefs, State.slotAt_moveRefs]

theorem State.nailAt_applyEdit (hbefore : r.program.nails.toList.Nodup) (hafter : (r.edited e).program.nails.toList.Nodup)
    (n : NailNo) :
    (s.applyEdit k r e).nailAt n =
      { s.nailAt n with
        refCount := (s.nailAt n).refCount - (if r.program.nails.names n && !(r.edited e).program.nails.names n then 1 else 0)
          + (if (r.edited e).program.nails.names n && !r.program.nails.names n then 1 else 0) } := by
  rw [State.applyEdit_eq, State.nailAt_setRecord, State.nailAt_moveRefs s _ _ hbefore hafter]

/-- An edit is a dispatch opportunity when the record was READY or is (R16, R92). -/
def State.editOpportunity : Bool := decide (r.status = .ready) || decide ((s.editedRecord r e).status = .ready)

theorem State.editNow_eq :
    s.editNow k r e =
      (if s.editOpportunity r e then (s.applyEdit k r e).reportOpportunity else s.applyEdit k r e).testRunEnd := by
  have hrecord : (s.applyEdit k r e).recordAt k = some (s.editedRecord r e) := by
    unfold State.recordAt
    rw [State.slotAt_applyEdit, if_pos rfl]
  unfold State.editNow State.editOpportunity
  dsimp only
  rw [hrecord]
  simp only [Option.map_some, Option.some_inj, Bool.or_eq_true, decide_eq_true_eq]

/-- What stands in the tables after an edit, and what it leaves of the rest. -/
theorem State.editNow_rest :
    (s.editNow k r e).steps = (s.applyEdit k r e).steps ∧ (s.editNow k r e).nails = (s.applyEdit k r e).nails
      ∧ (s.editNow k r e).exam = examAfter (s.editOpportunity r e) s.run.state s.exam
      ∧ RunEndTested s.run s.latches (s.editNow k r e) ∧ SameLinks s (s.editNow k r e)
      ∧ SameSettings s (s.editNow k r e) := by
  have hchanged := TablesChanged.applyEdit s k r e
  rw [State.editNow_eq]
  refine ⟨?_, ?_, ?_, ?_, ?_, ?_⟩
  · rw [State.steps_testRunEnd]; split
    · exact State.reportOpportunity_steps _
    · rfl
  · rw [State.nails_testRunEnd]; split
    · exact State.reportOpportunity_nails _
    · rfl
  · rw [State.exam_testRunEnd]
    cases s.editOpportunity r e with
    | true =>
      show (State.reportOpportunity _).exam = _
      rw [State.reportOpportunity_eq, hchanged.run, hchanged.exam]
    | false => exact hchanged.exam
  · have htested := (if s.editOpportunity r e then (s.applyEdit k r e).reportOpportunity
      else s.applyEdit k r e).testRunEnd_tested
    have hsame : ((if s.editOpportunity r e then (s.applyEdit k r e).reportOpportunity else s.applyEdit k r e).run = s.run)
        ∧ (if s.editOpportunity r e then (s.applyEdit k r e).reportOpportunity else s.applyEdit k r e).latches = s.latches := by
      split
      · exact ⟨(State.reportOpportunity_run _).trans hchanged.run, (State.reportOpportunity_latches _).trans hchanged.latches⟩
      · exact ⟨hchanged.run, hchanged.latches⟩
    rwa [hsame.1, hsame.2] at htested
  · refine SameLinks.trans ?_ (.testRunEnd _)
    split
    · exact hchanged.links.trans (.report _)
    · exact hchanged.links
  · refine SameSettings.trans ?_ (.testRunEnd _)
    split
    · exact hchanged.settings.trans (.report _)
    · exact hchanged.settings

end

theorem StepStatus.ofReasons_eq (p : ParkReasons) :
    StepStatus.ofReasons p = if p.requested || p.nail then .parked p else .ready := rfl

/-- The status of a record edited at once. -/
theorem State.editedRecord_status (s : State) (r : StepRecord) (b : EditBody) :
    (s.editedRecord r b.edit).status =
      (if b.hasNails then
        (if r.status.reasons.requested || s.anyRetired (s.editedRecord r b.edit).program.nails then
          .parked { requested := r.status.reasons.requested, nail := s.anyRetired (s.editedRecord r b.edit).program.nails }
        else .ready)
      else r.status) := by
  cases h : b.hasNails with
  | true => simp [State.editedRecord, StepRecord.edited, EditBody.edit, h, StepStatus.ofReasons_eq]
  | false => simp [State.editedRecord, EditBody.edit, h]

theorem State.editedRecord_not_held {s : State} {r : StepRecord} {e : StepEdit} (h : r.status.isHeld = false) :
    (s.editedRecord r e).status.isHeld = false := by
  unfold State.editedRecord
  dsimp only
  split
  · exact h
  · exact StepStatus.ofReasons_isHeld _

/-- The step state reply of a record that is not HELD. -/
theorem stepStateBody_not_held {k : Slot} {mark : Bool} {r : StepRecord} (h : r.status.isHeld = false) :
    stepStateBody k { runMark := mark, record := some r } =
      bytesOf16 k.val ++ (match r.status with
        | .parked p => [3, byteOf (p.requested.toNat + 2 * p.nail.toNat)]
        | _ => [1, 0]) := by
  cases hstatus : r.status with
  | ready => exact stepStateBody_ready hstatus
  | parked p => exact stepStateBody_parked hstatus
  | held p d q => rw [hstatus] at h; cases h

/-! ## The owner -/

section
variable {body : List Byte} {s : State} {k : Slot} {r : StepRecord}

theorem stepEditOwner_short (h : body.length < 3) : stepEditOwner body s = (s, refuse .badLength) := by
  unfold stepEditOwner
  dsimp only
  rw [if_pos h]

theorem stepEditOwner_closed (hlength : 3 ≤ body.length)
    (h : ∀ k : Slot, (word16At body 0).toNat = k.val → s.closedSlot k) :
    stepEditOwner body s = (s, refuse .noSuchStep) := by
  have hopen : s.openRecord (readEdit body).slot = none := State.openRecord_of_closed h
  unfold stepEditOwner
  dsimp only
  rw [if_neg (by omega), hopen]

theorem stepEditOwner_failing (hlength : 3 ≤ body.length) (hk : (word16At body 0).toNat = k.val) (hr : s.recordAt k = some r)
    (hopen : r.status.retiring = false) {st : Status} (h : FirstFailing (s.editCheck body r.program.kind) st) :
    stepEditOwner body s = (s, refuse st) := by
  have hnamed : s.openRecord (readEdit body).slot = some (k, r) := State.openRecord_of_record hk hr hopen
  unfold stepEditOwner
  dsimp only
  rw [if_neg (by omega), hnamed]
  dsimp only
  rw [(s.editChecks_some body _ st).mpr h]

theorem stepEditOwner_held {p : Bool} {d : Option StepEdit} (hk : (word16At body 0).toNat = k.val)
    (hr : s.recordAt k = some r) (hchecks : s.editAccepted body r.program.kind) (hstatus : r.status = .held p d false) :
    stepEditOwner body s =
      (s.setRecord k { r with status := .held p (some (readEdit body).edit) false },
        .reply .deferred (bytesOf16 k.val ++ [2, byteOf p.toNat])) := by
  obtain ⟨hlength, hpasses⟩ := hchecks
  have hnamed : s.openRecord (readEdit body).slot = some (k, r) := State.openRecord_of_record hk hr (by rw [hstatus]; rfl)
  unfold stepEditOwner
  dsimp only
  rw [if_neg (by omega), hnamed]
  dsimp only
  rw [(s.editChecks_none body _).mpr hpasses, hstatus]
  dsimp only
  rw [State.stepStateReply_setRecord, stepStateBody_held (by rfl)]

theorem stepEditOwner_now (hk : (word16At body 0).toNat = k.val) (hr : s.recordAt k = some r)
    (hchecks : s.editAccepted body r.program.kind) (hheld : r.status.isHeld = false) :
    stepEditOwner body s =
      (s.editNow k r (readEdit body).edit, .reply .ok ((s.editNow k r (readEdit body).edit).stepStateReply k)) := by
  obtain ⟨hlength, hpasses⟩ := hchecks
  unfold stepEditOwner
  dsimp only
  cases hstatus : r.status with
  | held p d q => rw [hstatus] at hheld; cases hheld
  | ready | parked p =>
    have hnamed : s.openRecord (readEdit body).slot = some (k, r) := State.openRecord_of_record hk hr (by rw [hstatus]; rfl)
    rw [if_neg (by omega), hnamed]
    dsimp only
    rw [(s.editChecks_none body _).mpr hpasses, hstatus]

end

/-! ## The layout (section 10.3) -/

theorem mul_toNat (n : Nat) (b : Bool) : n * b.toNat = if b then n else 0 := by cases b <;> simp

theorem readEdit_at (body : List Byte) : EditRead body (readEdit body) := by
  have hone (b : Bool) : b.toNat = if b then 1 else 0 := by cases b <;> rfl
  have hguards (x : Byte) : (x.extractLsb' 2 3).toNat = x.toNat / 4 % 8 := by
    simp [BitVec.extractLsb'_toNat, Nat.shiftRight_eq_div_pow]
  unfold EditRead readEdit
  simp only [mul_toNat, hguards, hone (bitAt body 2 4), true_and, and_true]
  exact ⟨readNails_at _ _ _ _ _, readTiming_at _ _ _, rfl⟩

/-- Settles O17. -/
theorem stepEditAppliesOrDefers : Obligations.StepEditAppliesOrDefers := by
  refine ⟨fun s f k r htakes hlength hk hr hchecks => ⟨fun p d hstatus => ?_, fun hheld hnodup => ?_⟩,
    fun s f htakes hlength => ⟨fun hshort => ?_, fun hlong hclosed => ?_, fun k r st hlong hk hr hopen hfirst => ?_⟩,
    fun body => ⟨readEdit_at body, fun r => ⟨groupsReplaced_edited _ r, rfl⟩⟩, fun st => ⟨?_, ?_, fun hst => ?_⟩⟩
  · have hchanged := TablesChanged.setRecord (s.taken f) k { r with status := .held p (some (readEdit f.body).edit) false }
    refine ⟨_, exec_of_reply rfl htakes hlength (stepEditOwner_held (s := s.taken f) hk hr hchecks hstatus), ?_, fun j hj => ?_,
      rfl, State.port_replied _ _ _ _, rfl, rfl, rfl, hchanged.links.replied _ _ _ _, hchanged.settings.replied _ _ _ _⟩
    · rw [State.slotAt_replied, State.slotAt_setRecord_self]
      rfl
    · rw [State.slotAt_replied, State.slotAt_setRecord, if_neg hj]
      rfl
  · obtain ⟨hsteps, hnails, hexam, htested, hlinks, hsettings⟩ := (s.taken f).editNow_rest k r (readEdit f.body).edit
    have hslot := (s.taken f).slotAt_applyEdit k r (readEdit f.body).edit
    have hafter : (r.edited (readEdit f.body).edit).program.nails.toList.Nodup := by
      rw [StepRecord.edited_nails]
      cases hnew : (readEdit f.body).edit.nails with
      | none => exact hnodup
      | some l =>
        have hsound := State.editChecks_sound ((s.editChecks_none f.body _).mpr hchecks.2) hnew
        simp only [NailList.sound, Bool.and_eq_true, decide_eq_true_eq] at hsound
        exact hsound.1
    refine ⟨_, (s.taken f).editedRecord r (readEdit f.body).edit,
      exec_of_reply rfl htakes hlength (stepEditOwner_now (s := s.taken f) hk hr hchecks hheld), ?_,
      groupsReplaced_edited _ r, State.editedRecord_status _ r _, fun j hj => ?_, fun n => ?_, ?_, ?_,
      htested.replied _ _ _ _, hlinks.replied _ _ _ _, hsettings.replied _ _ _ _⟩
    · rw [State.slotAt_replied, State.slotAt_congr hsteps, hslot, if_pos rfl]
      rfl
    · rw [State.slotAt_replied, State.slotAt_congr hsteps, hslot, if_neg hj]
      rfl
    · rw [State.nailAt_replied, State.nailAt_congr hnails, State.nailAt_applyEdit _ _ _ _ hnodup hafter]
      rfl
    · rw [State.port_replied, State.stepStateReply_congr hsteps]
      unfold State.stepStateReply
      rw [hslot, if_pos rfl, stepStateBody_not_held (State.editedRecord_not_held hheld)] <;> rfl
    · rw [State.exam_replied, hexam]
      rfl
  · exact exec_of_reply rfl htakes hlength (stepEditOwner_short hshort)
  · exact exec_of_reply rfl htakes hlength (stepEditOwner_closed (s := s.taken f) hlong hclosed)
  · refine exec_of_reply rfl htakes hlength (stepEditOwner_failing (s := s.taken f) hlong hk hr ?_ hfirst)
    cases hstatus : r.status with
    | held p d q =>
      cases q with
      | false => rfl
      | true => exact absurd hstatus (hopen p d)
    | ready | parked _ => rfl
  · cases st <;> simp [StepStatus.isHeld]
  · rintro p rfl; rfl
  · cases st with
    | parked p => exact absurd rfl (hst p)
    | ready | held _ _ _ => rfl

end Sys2Proof.Machine
end

section
/-! CERTIFICATE. The walks of STEP SCAN and NAIL LOOKUP. -/

namespace Sys2Proof.Machine

/-- A request that begins a walk. -/
theorem exec_of_walk {i : Instr} {code : Byte} {f : RequestFrame} {owner : List Byte → State → State × Answer} {s : State}
    {w : Walk} (hexec : exec i s = .next (takeRequest owner code f s)) (htakes : s.takes) (hlength : f.body.length ≤ 60)
    (howner : owner f.body (s.taken f) = (s.taken f, .walking w)) :
    exec i s = .next { s.taken f with port := .holding { code := code, tag := f.tag, body := f.body } w } := by
  rw [hexec, takeRequest_of_walk htakes hlength howner]

theorem slotOf_eq_none {w : BitVec 16} (h : 2048 ≤ w.toNat) : slotOf w = none := dif_neg (by omega)

/-! ## The owners -/

section
variable {body : List Byte} {s : State} {k : Slot} {n : NailNo}

theorem stepScanOwner_walking (hlength : body.length = 6) (hk : (word16At body 0).toNat = k.val) :
    stepScanOwner body s = (s, .walking (.scan
      { verdicts := (word16At body 2).extractLsb' 0 12, states := (byteAt body 4).extractLsb' 0 4,
        currentRun := (byteAt body 5).getLsbD 0 } k [])) := by
  unfold stepScanOwner
  rw [if_neg (not_not.mpr hlength), slotOf_eq_some.mpr hk]
  rfl

theorem stepScanOwner_noSuchStep (hlength : body.length = 6) (h : 2048 ≤ (word16At body 0).toNat) :
    stepScanOwner body s = (s, refuse .noSuchStep) := by
  unfold stepScanOwner
  rw [if_neg (not_not.mpr hlength), slotOf_eq_none h]

theorem nailLookupOwner_walking (hlength : body.length = 4) (hn : (word16At body 0).toNat = n.val)
    (hk : (word16At body 2).toNat = k.val) : nailLookupOwner body s = (s, .walking (.lookup n k [])) := by
  unfold nailLookupOwner
  rw [if_neg (not_not.mpr hlength), namedNail_eq_some.mpr hn, slotOf_eq_some.mpr hk]

theorem nailLookupOwner_badNail (hlength : body.length = 4) (h : 4096 ≤ (word16At body 0).toNat) :
    nailLookupOwner body s = (s, refuse .badNail) := by
  unfold nailLookupOwner
  rw [if_neg (not_not.mpr hlength), namedNail_eq_none h]

theorem nailLookupOwner_noSuchStep (hlength : body.length = 4) (hn : (word16At body 0).toNat < 4096)
    (h : 2048 ≤ (word16At body 2).toNat) : nailLookupOwner body s = (s, refuse .noSuchStep) := by
  unfold nailLookupOwner
  rw [if_neg (not_not.mpr hlength), namedNail_eq_some (n := ⟨_, hn⟩) |>.mpr rfl, slotOf_eq_none h]

end

/-! ## The visits -/

theorem slotAfter_of_val {k next : Slot} (h : next.val = k.val + 1) : slotAfter k = some next := by
  unfold slotAfter
  rw [dif_pos (by omega)]
  exact congrArg some (Fin.ext h.symm)

theorem slotAfter_last {k : Slot} (h : k.val = 2047) : slotAfter k = none := dif_neg (by omega)

/-- The next start in the reply of a walk that ends at a slot. -/
theorem nextStartBytes_slotAfter (k : Slot) :
    nextStartBytes (slotAfter k) = if k.val < 2047 then bytesOf16 (k.val + 1) else [0xFF, 0xFF] := by
  by_cases hk : k.val < 2047
  · rw [slotAfter_of_val (next := ⟨k.val + 1, by omega⟩) rfl, if_pos hk]
    rfl
  · rw [slotAfter_last (by omega), if_neg hk]
    rfl

/-- The walk's rule: go on to the next slot, or end with the next start. -/
theorem walk_goesOn {α : Type} {full : Prop} [Decidable full] {k next : Slot} (h : next.val = k.val + 1) (hfull : ¬ full)
    (ended : Option Slot → α) (onward : Slot → α) :
    (if full then ended (slotAfter k) else match slotAfter k with
      | none => ended none
      | some j => onward j) = onward next := by
  rw [if_neg hfull, slotAfter_of_val h]

/-- The slot after the visited one, named in the reply of a walk that is full. -/
def nextStart (full : Prop) [Decidable full] (k : Slot) : List Byte :=
  if full ∧ k.val < 2047 then bytesOf16 (k.val + 1) else [0xFF, 0xFF]

theorem walk_ends {α : Type} {full : Prop} [Decidable full] {k : Slot} (h : k.val = 2047 ∨ full)
    (ended : List Byte → α) (onward : Slot → α) :
    (if full then ended (nextStartBytes (slotAfter k)) else match slotAfter k with
      | none => ended (nextStartBytes none)
      | some j => onward j) = ended (nextStart full k) := by
  unfold nextStart
  by_cases hfull : full
  · rw [if_pos hfull, nextStartBytes_slotAfter]
    simp only [hfull, true_and]
  · have hlast : k.val = 2047 := h.resolve_right hfull
    rw [if_neg hfull, slotAfter_last hlast, if_neg (fun hand => hfull hand.1)]
    rfl

section
variable {s : State} {q : Request} {k next : Slot}

theorem execStepScanVisit_of_walk {f : ScanFilter} {found : List Slot} (h : s.port = .holding q (.scan f k found)) :
    exec .stepScanVisit s = .next (s.scanVisit q f k found) := by
  show execStepScanVisit s = _
  unfold execStepScanVisit
  rw [h]

theorem execNailLookupVisit_of_walk {n : NailNo} {found : List (Slot × Role)} (h : s.port = .holding q (.lookup n k found)) :
    exec .nailLookupVisit s = .next (s.lookupVisit q n k found) := by
  show execNailLookupVisit s = _
  unfold execNailLookupVisit
  rw [h]

/-- What a STEP SCAN walk has collected after a visit. -/
theorem scanVisit_found (f : ScanFilter) (found : List Slot) :
    (if f.selects s.run.number (s.slotAt k) then found ++ [k] else found) =
      found ++ (if f.selects s.run.number (s.slotAt k) then [k] else []) := by
  split <;> simp

theorem scanVisit_goesOn {f : ScanFilter} {found found' : List Slot} (hnext : next.val = k.val + 1)
    (hfound : found' = found ++ (if f.selects s.run.number (s.slotAt k) then [k] else [])) (hfull : ¬ 32 ≤ found'.length) :
    s.scanVisit q f k found = { s with port := .holding q (.scan f next found') } := by
  unfold State.scanVisit
  rw [scanVisit_found, ← hfound]
  exact walk_goesOn hnext hfull (fun o => s.endWalk q (scanBody found' o)) _

theorem scanVisit_ends {f : ScanFilter} {found found' : List Slot}
    (hfound : found' = found ++ (if f.selects s.run.number (s.slotAt k) then [k] else []))
    (hend : k.val = 2047 ∨ 32 ≤ found'.length) :
    s.scanVisit q f k found = s.placeReply
      { code := q.code, tag := q.tag, status := .ok
        body := [byteOf found'.length] ++ nextStart (32 ≤ found'.length) k ++ found'.flatMap (fun j => bytesOf16 j.val) } := by
  unfold State.scanVisit
  rw [scanVisit_found, ← hfound]
  exact walk_ends hend (fun b => s.endWalk q ([byteOf found'.length] ++ b ++ found'.flatMap (fun j => bytesOf16 j.val))) _

theorem lookupVisit_goesOn {n : NailNo} {found found' : List (Slot × Role)} (hnext : next.val = k.val + 1)
    (hfound : found' = found ++ ((s.slotAt k).roleOf n).toList.map (Prod.mk k)) (hfull : ¬ 32 ≤ found'.length) :
    s.lookupVisit q n k found = { s with port := .holding q (.lookup n next found') } := by
  unfold State.lookupVisit
  cases hrole : (s.slotAt k).roleOf n with
  | none | some role =>
    rw [hrole] at hfound
    simp only [Option.toList_none, Option.toList_some, List.map_nil, List.map_cons, List.append_nil] at hfound
    dsimp only
    rw [← hfound]
    exact walk_goesOn hnext hfull (fun o => s.endWalk q (lookupBody (s.nailAt n).refCount found' o)) _

theorem lookupVisit_ends {n : NailNo} {found found' : List (Slot × Role)}
    (hfound : found' = found ++ ((s.slotAt k).roleOf n).toList.map (Prod.mk k)) (hend : k.val = 2047 ∨ 32 ≤ found'.length) :
    s.lookupVisit q n k found = s.placeReply
      { code := q.code, tag := q.tag, status := .ok
        body := bytesOf16 (s.nailAt n).refCount ++ [byteOf found'.length] ++ nextStart (32 ≤ found'.length) k
          ++ found'.flatMap (fun e => bytesOf16 e.1.val ++ [byteOf e.2.code]) } := by
  unfold State.lookupVisit
  cases hrole : (s.slotAt k).roleOf n with
  | none | some role =>
    rw [hrole] at hfound
    simp only [Option.toList_none, Option.toList_some, List.map_nil, List.map_cons, List.append_nil] at hfound
    dsimp only
    rw [← hfound]
    exact walk_ends hend (fun b => s.endWalk q (bytesOf16 (s.nailAt n).refCount ++ [byteOf found'.length] ++ b
      ++ found'.flatMap (fun e => bytesOf16 e.1.val ++ [byteOf e.2.code]))) _

end

/-! ## What is collected -/

theorem StepSlot.stateCode_eq (slot : StepSlot) : slot.stateCode = stateCodeOf slot.record := by
  obtain ⟨mark, record⟩ := slot
  cases record with
  | none => rfl
  | some r =>
    unfold StepSlot.stateCode stateCodeOf
    cases hstatus : r.status <;> simp [hstatus]

theorem ScanFilter.selects_iff (f : ScanFilter) (run : BitVec 16) (slot : StepSlot) : f.selects run slot = true ↔
    (f.verdicts ≠ 0 → ∃ r, slot.record = some r ∧ f.verdicts.getLsbD (verdictCode r.stats.lastVerdict) = true)
    ∧ (if f.states = 0 then slot.record ≠ none else f.states.getLsbD (stateCodeOf slot.record) = true)
    ∧ (f.currentRun = true → ∃ r, slot.record = some r ∧ r.stats.lastRun = some run) := by
  unfold ScanFilter.selects
  rw [StepSlot.stateCode_eq, Bool.and_eq_true, Bool.and_eq_true, and_assoc]
  refine and_congr ?_ (and_congr ?_ ?_)
  · cases slot.record with
    | none => simp
    | some r => simp [or_iff_not_imp_left]
  · split
    · exact Option.isSome_iff_ne_none
    · exact Iff.rfl
  · cases slot.record with
    | none => simp
    | some r => cases f.currentRun <;> simp

theorem StepSlot.roleOf_eq_none (slot : StepSlot) (n : NailNo) :
    slot.roleOf n = none ↔ ∀ r, slot.record = some r → n ∉ r.program.nails.toList := by
  unfold StepSlot.roleOf
  cases slot.record with
  | none => simp
  | some r => simp [NailList.roleOf_eq_none, ← NailList.names_iff]

theorem StepSlot.mem_entries_of_roleOf {slot : StepSlot} {n : NailNo} {role : Role} (h : slot.roleOf n = some role) :
    ∃ r, slot.record = some r ∧ (role, n) ∈ r.program.nails.entries := by
  unfold StepSlot.roleOf at h
  cases hr : slot.record with
  | none => rw [hr] at h; cases h
  | some r =>
    rw [hr] at h
    obtain ⟨e, he, rfl⟩ := Option.map_eq_some_iff.mp h
    have hnail : e.2 = n := by simpa using List.find?_some he
    exact ⟨r, rfl, hnail ▸ List.mem_of_find?_eq_some he⟩

/-- Settles O20. -/
theorem walksVisitSlotsInOrder : Obligations.WalksVisitSlotsInOrder := by
  refine ⟨fun s f htakes => ⟨fun k hlength hk => ?_, fun n k hlength hn hk => ?_, fun hlength hk => ?_, fun hlength hn => ?_,
    fun hlength hn hk => ?_⟩, fun s q f k found hport => ⟨fun next hnext hroom => ?_, fun hend => ?_⟩,
    fun s q n k found hport => ⟨fun next hnext hroom => ?_, fun hend => ?_⟩, ScanFilter.selects_iff,
    fun slot n => ⟨slot.roleOf_eq_none n, fun role => StepSlot.mem_entries_of_roleOf⟩⟩
  · exact exec_of_walk rfl htakes (by omega) (stepScanOwner_walking hlength hk)
  · exact exec_of_walk rfl htakes (by omega) (nailLookupOwner_walking hlength hn hk)
  · exact exec_of_reply rfl htakes (by omega) (stepScanOwner_noSuchStep hlength hk)
  · exact exec_of_reply rfl htakes (by omega) (nailLookupOwner_badNail hlength hn)
  · exact exec_of_reply rfl htakes (by omega) (nailLookupOwner_noSuchStep hlength hn hk)
  · rw [execStepScanVisit_of_walk hport, scanVisit_goesOn hnext rfl (Nat.not_le.mpr hroom)]
  · rw [execStepScanVisit_of_walk hport, scanVisit_ends rfl hend]
    rfl
  · rw [execNailLookupVisit_of_walk hport]
    cases hrole : (s.slotAt k).roleOf n with
    | none | some role =>
      simp only [hrole] at hroom
      rw [lookupVisit_goesOn hnext (by rw [hrole]; rfl) (Nat.not_le.mpr hroom)]
  · rw [execNailLookupVisit_of_walk hport]
    cases hrole : (s.slotAt k).roleOf n with
    | none | some role =>
      simp only [hrole] at hend
      rw [lookupVisit_ends (by rw [hrole]; rfl) hend]
      rfl

end Sys2Proof.Machine
end

section
/-! CERTIFICATE. The requests on the Nail Map: NAIL RETIRE, NAIL RESTORE and NAIL COMMON. -/

namespace Sys2Proof.Machine

/-! ## A change of every slot -/

/-- The state with a change made to every slot. -/
def State.mapSlots (s : State) (g : StepSlot → StepSlot) : State :=
  { s with steps := Table.mapAll StepSlot.blank g s.steps }

theorem State.slotAt_mapSlots {s : State} (h : s.canonical = true) {g : StepSlot → StepSlot}
    (hblank : g StepSlot.blank = StepSlot.blank) (k : Slot) : (s.mapSlots g).slotAt k = g (s.slotAt k) := by
  obtain ⟨hsteps, -⟩ := (State.canonical_iff s).mp h
  obtain ⟨hrising, -⟩ := (Table.wf_iff _ _).mp hsteps
  exact Table.get_mapAll _ g hblank _ hrising k

theorem State.losesNail_congr {s t : State} (h : t.nails = s.nails) (n : NailNo) (slot : StepSlot) :
    t.losesNail n slot = s.losesNail n slot := by
  unfold State.losesNail
  cases slot.record with
  | none => rfl
  | some r => dsimp only; rw [State.anyRetired_congr fun m => congrArg NailEntry.state (State.nailAt_congr h m)]

/-! ## NAIL RETIRE (R45) -/

/-- The NAIL reason added where a record gains it. -/
def StepSlot.nailRetired (n : NailNo) (slot : StepSlot) : StepSlot :=
  if slot.gainsNail n then slot.withNailReason else slot

theorem StepSlot.nailRetired_of_named {slot : StepSlot} {n : NailNo} {r : StepRecord} (hr : slot.record = some r)
    (hheld : r.status.isHeld = false) (hnames : r.program.nails.names n = true) :
    slot.nailRetired n = { slot with
      record := some { r with status := .parked { requested := r.status.reasons.requested, nail := true } } } := by
  obtain ⟨mark, record⟩ := slot
  cases hr
  have hgains : (StepSlot.mk mark (some r)).gainsNail n = !r.status.reasons.nail := by
    simp [StepSlot.gainsNail, hheld, hnames]
  unfold StepSlot.nailRetired
  rw [hgains]
  cases hnail : r.status.reasons.nail with
  | false => simp [StepSlot.withNailReason, StepStatus.ofReasons]
  | true =>
    cases hstatus : r.status with
    | ready => rw [hstatus] at hnail; cases hnail
    | held p d q => rw [hstatus] at hheld; cases hheld
    | parked p =>
      obtain ⟨requested, nail⟩ := p
      rw [hstatus] at hnail
      obtain rfl : nail = true := hnail
      simp [StepStatus.reasons, ← hstatus]

theorem StepSlot.nailRetired_of_others {slot : StepSlot} {n : NailNo}
    (h : ∀ r, slot.record = some r → r.status.isHeld = true ∨ r.program.nails.names n = false) : slot.nailRetired n = slot := by
  refine if_neg fun hgains => ?_
  obtain ⟨r, hr, hnames, hstatus⟩ := (slot.gainsNail_iff n).mp hgains
  rcases h r hr with hheld | hno
  · rcases hstatus with hready | ⟨p, hparked, -⟩
    · rw [hready] at hheld; cases hheld
    · rw [hparked] at hheld; cases hheld
  · rw [(NailList.names_iff _ n).mpr hnames] at hno
    cases hno

/-- The tables after a retirement, before the run's end is tested. -/
def State.retiredTables (s : State) (n : NailNo) : State :=
  (s.mapSlots (StepSlot.nailRetired n)).setNail n { s.nailAt n with state := .retired }

theorem TablesChanged.retiredTables (s : State) (n : NailNo) : TablesChanged s (s.retiredTables n) := ⟨_, _, rfl⟩

theorem State.slotAt_retiredTables {s : State} (h : s.canonical = true) (n : NailNo) (k : Slot) :
    (s.retiredTables n).slotAt k = (s.slotAt k).nailRetired n := by
  unfold State.retiredTables
  rw [State.slotAt_setNail, State.slotAt_mapSlots h rfl]

theorem State.nailAt_retiredTables (s : State) (n m : NailNo) :
    (s.retiredTables n).nailAt m = if m = n then { s.nailAt n with state := .retired } else s.nailAt m :=
  State.nailAt_setNail _ _ _ _

section
variable {body : List Byte} {s : State} {n : NailNo}

theorem nailRetireOwner_badNail (hlength : body.length = 2) (h : 4096 ≤ (word16At body 0).toNat) :
    nailRetireOwner body s = (s, refuse .badNail) := by
  unfold nailRetireOwner
  rw [if_neg (not_not.mpr hlength), namedNail_eq_none h]

theorem nailRetireOwner_again (hlength : body.length = 2) (hn : (word16At body 0).toNat = n.val)
    (h : (s.nailAt n).state = .retired) : nailRetireOwner body s = (s, .reply .ok (nailEntryBody n (s.nailAt n) ++ [0, 0])) := by
  unfold nailRetireOwner
  rw [if_neg (not_not.mpr hlength), namedNail_eq_some.mpr hn]
  exact if_pos h

theorem nailRetireOwner_retires (hlength : body.length = 2) (hn : (word16At body 0).toNat = n.val)
    (h : (s.nailAt n).state ≠ .retired) :
    nailRetireOwner body s = ((s.retiredTables n).testRunEnd, .reply .ok
      (nailEntryBody n ((s.retiredTables n).testRunEnd.nailAt n)
        ++ bytesOf16 (s.steps.filter (fun e => e.2.gainsNail n)).length)) := by
  unfold nailRetireOwner
  rw [if_neg (not_not.mpr hlength), namedNail_eq_some.mpr hn]
  exact if_neg h

end

/-! ## NAIL RESTORE (R46) -/

/-- The slot after a restoration that leaves a Nail Map. -/
def StepSlot.nailRestored (served : State) (n : NailNo) (slot : StepSlot) : StepSlot :=
  if served.losesNail n slot then slot.withoutNailReason else slot

/-- The tables after a restoration, before the dispatch opportunity is reported. -/
def State.restoredTables (s : State) (n : NailNo) : State :=
  if (s.nailAt n).state = .retired then (s.serviceNail n).mapSlots (StepSlot.nailRestored (s.serviceNail n) n)
  else s.serviceNail n

theorem TablesChanged.restoredTables (s : State) (n : NailNo) : TablesChanged s (s.restoredTables n) := by
  unfold State.restoredTables
  split
  · exact ⟨_, _, rfl⟩
  · exact ⟨_, _, rfl⟩

theorem State.nails_restoredTables (s : State) (n : NailNo) : (s.restoredTables n).nails = (s.serviceNail n).nails := by
  unfold State.restoredTables
  split <;> rfl

theorem State.nailAt_restoredTables (s : State) (n m : NailNo) :
    (s.restoredTables n).nailAt m =
      if m = n then { s.nailAt n with state := .service, contactFails := 0 } else s.nailAt m := by
  rw [State.nailAt_congr (s.nails_restoredTables n)]
  exact State.nailAt_setNail _ _ _ _

theorem State.slotAt_restoredTables {s : State} (h : s.canonical = true) (n : NailNo) (k : Slot) :
    (s.restoredTables n).slotAt k =
      if (s.nailAt n).state = .retired ∧ (s.serviceNail n).losesNail n (s.slotAt k) = true then (s.slotAt k).withoutNailReason
      else s.slotAt k := by
  have hserved : (s.serviceNail n).canonical = true := State.canonical_setNail h n _
  unfold State.restoredTables
  by_cases hretired : (s.nailAt n).state = .retired
  · rw [if_pos hretired, State.slotAt_mapSlots hserved rfl]
    simp only [hretired, true_and]
    rfl
  · rw [if_neg hretired, if_neg fun hand => hretired hand.1]
    rfl

section
variable {body : List Byte} {s : State} {n : NailNo}

theorem nailRestoreOwner_badNail (hlength : body.length = 2) (h : 4096 ≤ (word16At body 0).toNat) :
    nailRestoreOwner body s = (s, refuse .badNail) := by
  unfold nailRestoreOwner
  rw [if_neg (not_not.mpr hlength), namedNail_eq_none h]

theorem nailRestoreOwner_again (hlength : body.length = 2) (hn : (word16At body 0).toNat = n.val)
    (h : (s.nailAt n).state = .service) :
    nailRestoreOwner body s = (s, .reply .ok (nailEntryBody n (s.nailAt n) ++ [0, 0])) := by
  unfold nailRestoreOwner
  rw [if_neg (not_not.mpr hlength), namedNail_eq_some.mpr hn]
  exact if_pos h

theorem nailRestoreOwner_restores (hlength : body.length = 2) (hn : (word16At body 0).toNat = n.val)
    (h : (s.nailAt n).state ≠ .service) :
    nailRestoreOwner body s = ((s.restoredTables n).reportOpportunity, .reply .ok
      (nailEntryBody n ((s.restoredTables n).reportOpportunity.nailAt n) ++ bytesOf16 (s.lostCount n))) := by
  unfold nailRestoreOwner
  rw [if_neg (not_not.mpr hlength), namedNail_eq_some.mpr hn]
  exact if_neg h

end

/-- The count in the reply of a restoration, by the map it leaves. -/
theorem State.lostCount_of_nails {s t : State} {n : NailNo} (h : t.nails = (s.serviceNail n).nails) :
    s.lostCount n =
      if (s.nailAt n).state = .retired then (s.steps.filter (fun e => t.losesNail n e.2)).length else 0 := by
  unfold State.lostCount
  simp only [State.losesNail_congr h]

/-- Settles O21. -/
theorem nailRetireAndRestoreMoveRecords : Obligations.NailRetireAndRestoreMoveRecords := by
  refine ⟨fun s f n htakes hcanon hlength hn => ⟨fun hstate => ?_, fun hstate => ?_, fun hstate => ?_, fun hstate => ?_⟩,
    fun s f htakes hlength hn => ⟨?_, ?_⟩, fun slot n => ⟨slot.gainsNail_iff n, fun t => t.losesNail_iff slot n,
      fun r p => StepSlot.withoutNailReason_of_parked⟩⟩
  · have hchanged := TablesChanged.retiredTables (s.taken f) n
    have hsteps := State.steps_testRunEnd ((s.taken f).retiredTables n)
    have hnails := State.nails_testRunEnd ((s.taken f).retiredTables n)
    have hslot : ∀ k, ((s.taken f).retiredTables n).slotAt k = (s.slotAt k).nailRetired n :=
      State.slotAt_retiredTables (s := s.taken f) hcanon n
    refine ⟨_, exec_of_reply rfl htakes (by omega) (nailRetireOwner_retires (s := s.taken f) hlength hn hstate), ?_,
      fun m hm => ?_, fun k => ⟨fun r hr hheld hnames => ?_, fun hothers => ?_⟩, ?_, ?_, ?_, ?_, ?_⟩
    · rw [State.nailAt_replied, State.nailAt_congr hnails, State.nailAt_retiredTables, if_pos rfl]
      rfl
    · rw [State.nailAt_replied, State.nailAt_congr hnails, State.nailAt_retiredTables, if_neg hm]
      rfl
    · rw [State.slotAt_replied, State.slotAt_congr hsteps, hslot, StepSlot.nailRetired_of_named hr hheld hnames]
    · rw [State.slotAt_replied, State.slotAt_congr hsteps, hslot, StepSlot.nailRetired_of_others hothers]
    · rw [State.exam_replied, State.exam_testRunEnd, hchanged.exam]
      rfl
    · exact hchanged.tested.replied _ _ _ _
    · exact hchanged.links_testRunEnd.replied _ _ _ _
    · exact hchanged.settings_testRunEnd.replied _ _ _ _
    · rw [State.port_replied, State.nailAt_replied]
      rfl
  · exact exec_of_reply rfl htakes (by omega) (nailRetireOwner_again (s := s.taken f) hlength hn hstate)
  · have hchanged := TablesChanged.restoredTables (s.taken f) n
    have hnails : ((s.taken f).restoredTables n).reportOpportunity.nails = ((s.taken f).serviceNail n).nails :=
      (State.reportOpportunity_nails _).trans (State.nails_restoredTables _ n)
    have hcount := State.lostCount_of_nails (s := s.taken f) hnails
    refine ⟨_, exec_of_reply rfl htakes (by omega) (nailRestoreOwner_restores (s := s.taken f) hlength hn hstate), ?_,
      fun m hm => ?_, fun k => ?_, ?_, ?_, ?_, ?_, ?_, ?_⟩
    · rw [State.nailAt_replied, State.nailAt_reportOpportunity, State.nailAt_restoredTables, if_pos rfl]
      rfl
    · rw [State.nailAt_replied, State.nailAt_reportOpportunity, State.nailAt_restoredTables, if_neg hm]
      rfl
    · have hloses := State.losesNail_congr (s := (s.taken f).serviceNail n) hnails n (s.slotAt k)
      rw [State.slotAt_replied, State.slotAt_reportOpportunity, State.slotAt_restoredTables (s := s.taken f) hcanon]
      exact if_congr (and_congr_right fun _ => iff_of_eq (congrArg (· = true) hloses.symm)) rfl rfl
    · rw [State.exam_replied, State.reportOpportunity_eq, hchanged.exam, hchanged.run]
      rfl
    · rw [State.run_replied, State.reportOpportunity_run, hchanged.run]
      rfl
    · rw [State.latches_replied, State.reportOpportunity_latches, hchanged.latches]
      rfl
    · exact (hchanged.links.trans (.report _)).replied _ _ _ _
    · exact (hchanged.settings.trans (.report _)).replied _ _ _ _
    · rw [State.port_replied, hcount]
      rfl
  · exact exec_of_reply rfl htakes (by omega) (nailRestoreOwner_again (s := s.taken f) hlength hn hstate)
  · exact exec_of_reply rfl htakes (by omega) (nailRetireOwner_badNail (s := s.taken f) hlength hn)
  · exact exec_of_reply rfl htakes (by omega) (nailRestoreOwner_badNail (s := s.taken f) hlength hn)

/-! ## NAIL COMMON (R47, R48) -/

section
variable {body : List Byte} {s : State} {n : NailNo}

theorem nailCommonOwner_badNail (hlength : body.length = 3) (h : 4096 ≤ (word16At body 0).toNat) :
    nailCommonOwner body s = (s, refuse .badNail) := by
  unfold nailCommonOwner
  rw [if_neg (not_not.mpr hlength), namedNail_eq_none h]

theorem nailCommonOwner_set (hlength : body.length = 3) (hn : (word16At body 0).toNat = n.val)
    (h : (byteAt body 2).getLsbD 0 = true) : nailCommonOwner body s = s.setCommon n := by
  unfold nailCommonOwner
  rw [if_neg (not_not.mpr hlength), namedNail_eq_some.mpr hn]
  exact if_pos h

theorem nailCommonOwner_clear (hlength : body.length = 3) (hn : (word16At body 0).toNat = n.val)
    (h : (byteAt body 2).getLsbD 0 = false) : nailCommonOwner body s = s.clearCommon n := by
  unfold nailCommonOwner
  rw [if_neg (not_not.mpr hlength), namedNail_eq_some.mpr hn]
  exact if_neg (by rw [bitAt, h]; decide)

theorem State.setCommon_again (h : (s.nailAt n).common = true) :
    s.setCommon n = (s, .reply .ok (nailEntryBody n (s.nailAt n))) := if_pos h

theorem State.setCommon_inUse (hmark : (s.nailAt n).common = false)
    (h : (s.nailAt n).isBound = true ∨ (s.nailAt n).state = .suspect) : s.setCommon n = (s, refuse .nailInUse) := by
  unfold State.setCommon
  dsimp only
  rw [hmark, if_neg (by decide)]
  by_cases hbound : (s.nailAt n).isBound = true
  · rw [if_pos hbound]
  · rw [if_neg hbound, if_pos (h.resolve_left hbound)]

theorem State.setCommon_badRole (hmark : (s.nailAt n).common = false) (hbound : (s.nailAt n).isBound = false)
    (hstate : (s.nailAt n).state ≠ .suspect) (h : ∃ x ∈ s.steps, x.2.placesHigh n = true) :
    s.setCommon n = (s, refuse .badRole) := by
  unfold State.setCommon
  dsimp only
  rw [hmark, hbound, if_neg (by decide), if_neg (by decide), if_neg hstate, if_pos (List.any_eq_true.mpr h)]

theorem State.setCommon_marks (hmark : (s.nailAt n).common = false) (hbound : (s.nailAt n).isBound = false)
    (hstate : (s.nailAt n).state ≠ .suspect) (h : ∀ x ∈ s.steps, x.2.placesHigh n = false) :
    s.setCommon n = (s.setNail n { s.nailAt n with common := true },
      .reply .ok (nailEntryBody n { s.nailAt n with common := true })) := by
  have hnone : ¬ s.steps.any (fun x => x.2.placesHigh n) = true := by simpa using h
  unfold State.setCommon
  dsimp only
  rw [hmark, hbound, if_neg (by decide), if_neg (by decide), if_neg hstate, if_neg hnone, State.nailReply,
    State.nailAt_setNail_self]

theorem State.clearCommon_again (h : (s.nailAt n).common = false) :
    s.clearCommon n = (s, .reply .ok (nailEntryBody n (s.nailAt n))) := if_pos (by rw [h]; rfl)

theorem State.clearCommon_inUse (hmark : (s.nailAt n).common = true) (hbound : (s.nailAt n).isBound = true) :
    s.clearCommon n = (s, refuse .nailInUse) := by
  unfold State.clearCommon
  dsimp only
  rw [hmark, if_neg (by decide), if_pos hbound]

theorem State.clearCommon_clears (hmark : (s.nailAt n).common = true) (hbound : (s.nailAt n).isBound = false) :
    s.clearCommon n = (s.setNail n { s.nailAt n with common := false },
      .reply .ok (nailEntryBody n { s.nailAt n with common := false })) := by
  unfold State.clearCommon
  dsimp only
  rw [hmark, hbound, if_neg (by decide), if_neg (by decide), State.nailReply, State.nailAt_setNail_self]

end

/-- Settles O22. -/
theorem nailCommonFollowsItsChecks : Obligations.NailCommonFollowsItsChecks := by
  refine ⟨fun s f n htakes hlength hn => ?_, fun s f htakes hlength hn => ⟨?_, ?_⟩, NailEntry.isBound_iff,
    fun n => ⟨fun slot => slot.placesHigh_iff n, fun s hcanon => State.placesHigh_listed hcanon n⟩⟩
  · have hset : ∀ {t : State} {st : Status} {b : List Byte}, (byteAt f.body 2).getLsbD 0 = true →
        (s.taken f).setCommon n = (t, .reply st b) → exec (.nailCommonSet f) s = .next (t.replied 0x24 f st b) :=
      fun hbit h => exec_of_reply rfl htakes (by omega) ((nailCommonOwner_set hlength hn hbit).trans h)
    have hclear : ∀ {t : State} {st : Status} {b : List Byte}, (byteAt f.body 2).getLsbD 0 = false →
        (s.taken f).clearCommon n = (t, .reply st b) → exec (.nailCommonClear f) s = .next (t.replied 0x24 f st b) :=
      fun hbit h => exec_of_reply rfl htakes (by omega) ((nailCommonOwner_clear hlength hn hbit).trans h)
    exact ⟨fun hbit => ⟨fun h => hset hbit (State.setCommon_again (s := s.taken f) h),
        fun hmark h => hset hbit (State.setCommon_inUse (s := s.taken f) hmark h),
        fun hmark hbound hstate h => hset hbit (State.setCommon_badRole (s := s.taken f) hmark hbound hstate h),
        fun hmark hbound hstate h => hset hbit (State.setCommon_marks (s := s.taken f) hmark hbound hstate h)⟩,
      fun hbit => ⟨fun h => hclear hbit (State.clearCommon_again (s := s.taken f) h),
        fun hmark h => hclear hbit (State.clearCommon_inUse (s := s.taken f) hmark h),
        fun hmark h => hclear hbit (State.clearCommon_clears (s := s.taken f) hmark h)⟩⟩
  · exact exec_of_reply rfl htakes (by omega) (nailCommonOwner_badNail (s := s.taken f) hlength hn)
  · exact exec_of_reply rfl htakes (by omega) (nailCommonOwner_badNail (s := s.taken f) hlength hn)

end Sys2Proof.Machine
end

section
/-! CERTIFICATE. Arithmetic: the settle in ticks, and the reading scaled, compensated, learned and judged. -/

namespace Sys2Proof.Machine

/-! ## Settle ticks (R49, R53 to R61) -/

/-- The ceiling of a quotient is the least number whose product reaches the dividend. -/
theorem ceilDiv_le_iff {b : Nat} (h : 0 < b) (a n : Nat) : ceilDiv a b ≤ n ↔ a ≤ n * b := by
  have hsplit := Nat.div_add_mod a b
  have hmod := Nat.mod_lt a h
  have hle : a / b ≤ n ↔ a < (n + 1) * b := by rw [← Nat.lt_succ_iff, Nat.div_lt_iff_lt_mul h]
  have hlt : a / b + 1 ≤ n ↔ a < n * b := by rw [Nat.succ_le_iff, Nat.div_lt_iff_lt_mul h]
  unfold ceilDiv
  split_ifs with hexact
  · rw [hexact, Nat.add_zero, Nat.mul_comm] at hsplit
    calc a / b ≤ n ↔ a / b * b ≤ n * b := (Nat.mul_le_mul_right_iff h).symm
      _ ↔ a ≤ n * b := by rw [hsplit]
  · have hne : a ≠ n * b := fun heq => hexact (by rw [heq, Nat.mul_mod_left])
    rw [hlt]
    omega

theorem le_ceilDiv_mul {b : Nat} (h : 0 < b) (a : Nat) : a ≤ ceilDiv a b * b := (ceilDiv_le_iff h a _).mp le_rfl

theorem limitSettle_eq (sum : Nat) : limitSettle sum = (min 16777215 sum, decide (16777215 ≤ sum)) := by
  unfold limitSettle maxSettle
  split_ifs with h
  · rw [min_eq_left h, decide_eq_true h]
  · rw [min_eq_right (not_le.mp h).le, decide_eq_false h]

theorem timeConstants_le (c : BitVec 3) : timeConstants c ≤ 18 := by
  revert c
  decide

theorem Timebase.le_tickLength (b : Timebase) : 218750 ≤ b.tickLength :=
  calc 218750 = 31250 * 7 * 1 := by norm_num
    _ ≤ 31250 * (b.prescale.toNat + 7) * (b.divisor.toNat + 1) :=
      Nat.mul_le_mul (Nat.mul_le_mul_left _ (by omega)) (by omega)

/-- The longest RC part is that of the largest class, range and capacitance at the shortest tick. -/
theorem rcTicks_le (t : Timing) {r : Nat} (h : r ≤ 6) (b : Timebase) : rcTicks t r b.tickLength ≤ 862827429 := by
  have htick := b.le_tickLength
  have hcap : t.capacitance.toNat ≤ 1048575 := by have := t.capacitance.isLt; omega
  have hres : sourceResistance r ≤ 10 ^ 7 := Nat.pow_le_pow_right (by norm_num) (by omega)
  refine (ceilDiv_le_iff (by omega) _ _).mpr ?_
  calc timeConstants t.settleClass * (sourceResistance r * t.capacitance.toNat)
      ≤ 18 * (10 ^ 7 * 1048575) := Nat.mul_le_mul (timeConstants_le _) (Nat.mul_le_mul hres hcap)
    _ ≤ 862827429 * 218750 := by norm_num
    _ ≤ 862827429 * b.tickLength := Nat.mul_le_mul_left _ htick

/-- The longest conversion of a card's time at the shortest tick. -/
theorem microTicks_le {u : Nat} (h : u ≤ 255) (b : Timebase) : microTicks u b.tickLength ≤ 1166 := by
  have htick := b.le_tickLength
  exact (ceilDiv_le_iff (by omega) _ _).mpr (by omega)

/-- Settles O23. -/
theorem settleTicksAreExact : Obligations.SettleTicksAreExact := by
  refine ⟨fun u T hT => ⟨le_ceilDiv_mul hT _, fun n => (ceilDiv_le_iff hT _ n).mpr, fun v hv => ?_⟩,
    fun t r T hT => ⟨?_, fun n hn => ?_, fun operate => limitSettle_eq _, limitSettle_eq _⟩,
    fun b => ⟨rfl, b.le_tickLength, b.tickLength_le, fun t r operate hr hoperate => ⟨rcTicks_le t hr b,
        microTicks_le hoperate b, ?_⟩⟩,
    rfl, fun s => rfl⟩
  · exact (ceilDiv_le_iff hT _ _).mpr ((Nat.mul_le_mul_right _ hv).trans (le_ceilDiv_mul hT _))
  · exact le_ceilDiv_mul hT _
  · exact (ceilDiv_le_iff hT _ n).mpr hn
  · have hrc := rcTicks_le t hr b
    have hmicro := microTicks_le hoperate b
    have hextra : t.extraSettle.toNat ≤ 65535 := by have := t.extraSettle.isLt; omega
    omega

/-! ## The reading (R138, R139, R145) -/

theorem saturate24_toInt (x : Int) : (saturate24 x).toInt = max (-8388608) (min 8388607 x) :=
  BitVec.toInt_ofInt_eq_self (by decide) (by unfold minCount maxCount; omega) (by unfold minCount maxCount; omega)

/-- A quotient truncated toward zero lies between zero and the dividend. -/
theorem tdiv_between (d : Int) {m : Nat} (h : 0 < m) : min 0 d ≤ d.tdiv m ∧ d.tdiv m ≤ max 0 d := by
  have hm : (0 : Int) < m := by omega
  rcases Int.le_total 0 d with hd | hd
  · have hnonneg := Int.tdiv_nonneg hd hm.le
    have hle : d.tdiv m ≤ d := Int.tdiv_le_self _ hd
    omega
  · obtain ⟨n, rfl⟩ : ∃ n : Nat, d = -n := ⟨d.natAbs, by omega⟩
    have hnonneg := Int.tdiv_nonneg (Int.natCast_nonneg n) hm.le
    have hle : (n : Int).tdiv m ≤ n := Int.tdiv_le_self _ (Int.natCast_nonneg n)
    rw [Int.neg_tdiv]
    omega

theorem learnOffset_toInt (o s : BitVec 24) (w : Nat) :
    (learnOffset o s w).toInt = o.toInt + (s.toInt - o.toInt).tdiv (2 ^ w) := by
  obtain ⟨hlow, hhigh⟩ := tdiv_between (s.toInt - o.toInt) (Nat.two_pow_pos w)
  have ho := o.le_toInt
  have ho' := o.toInt_lt
  have hs := s.le_toInt
  have hs' := s.toInt_lt
  unfold learnOffset
  rw [BitVec.toInt_ofInt_eq_self (by decide) (by omega) (by omega)]
  norm_cast

/-- Settles O26. -/
theorem readingArithmeticIsExact : Obligations.ReadingArithmeticIsExact := by
  refine ⟨fun a j => ?_, fun s o => saturate24_toInt _, fun o s w => ?_⟩
  · rw [scaleCount, saturate24_toInt]
    norm_cast
  · obtain ⟨hlow, hhigh⟩ := tdiv_between (s.toInt - o.toInt) (Nat.two_pow_pos w)
    have hlearn := learnOffset_toInt o s w
    push_cast at hlow hhigh
    exact ⟨hlearn, by omega, by omega⟩

/-! ## The stages of a judgment (R136, R137, R141, R145) -/

section
variable {mode : RunMode} {weight : Nat} {r : StepRecord} {x : Reading}

theorem judge_of_fault (h : x.fault = true) :
    judge mode weight r x = .verdict (VerdictWrite.bare .converterFault (some x.rangeUsed)) := if_pos h

theorem judge_of_overrange_contact (hfault : x.fault = false) (hover : x.overrange = true) (hkind : r.program.kind = .contact) :
    judge mode weight r x = .verdict (VerdictWrite.bare .noContact (some x.rangeUsed)) := by
  simp [judge, hfault, hover, hkind]

theorem judge_of_overrange_measure (hfault : x.fault = false) (hover : x.overrange = true) (hkind : r.program.kind = .measure) :
    judge mode weight r x =
      if x.retriesUsed < r.program.retryAllowance.val ∧ x.rangeUsed < 6 then .retry
      else .verdict (VerdictWrite.bare .overrange (some x.rangeUsed)) := by
  simp [judge, hfault, hover, hkind]

theorem judge_of_count (hfault : x.fault = false) (hover : x.overrange = false) :
    judge mode weight r x =
      if mode = .learn ∧ r.program.kind = .measure then
        .verdict { verdict := .learned, value := some (scaleCount x.count (x.rangeUsed - r.program.timing.baseRange.val)),
                   deviation := none, range := some x.rangeUsed,
                   learnedOffset := some (learnOffset r.stats.offset
                    (scaleCount x.count (x.rangeUsed - r.program.timing.baseRange.val)) weight) }
      else .verdict (judgeValue r.program.kind r.program.limits
        (compensate (scaleCount x.count (x.rangeUsed - r.program.timing.baseRange.val)) r.stats.offset) x.rangeUsed) := by
  simp [judge, hfault, hover]

end

/-- Settles O27. -/
theorem judgmentStagesInOrder : Obligations.JudgmentStagesInOrder := by
  refine fun mode weight r x => ⟨judge_of_fault, judge_of_overrange_contact, fun hfault hover hkind => ⟨fun hretries hrange => ?_,
    fun hlast => ?_⟩, fun hfault hover => ⟨fun hmode hkind => ?_, fun hjudged => ?_⟩, fun lo hi v range => rfl⟩
  · rw [judge_of_overrange_measure hfault hover hkind, if_pos ⟨hretries, hrange⟩]
  · rw [judge_of_overrange_measure hfault hover hkind, if_neg fun hand => by omega]
  · rw [judge_of_count hfault hover, if_pos ⟨hmode, hkind⟩]
  · refine (judge_of_count hfault hover).trans (if_neg ?_)
    rintro ⟨hmode, hkind⟩
    rcases hjudged with h | h
    · exact h hmode
    · rw [hkind] at h; cases h

end Sys2Proof.Machine
end

section
/-! CERTIFICATE. The Dispatcher's walk, window and tests. -/

namespace Sys2Proof.Machine

/-! ## Walk order (R68, R89, R90) -/

theorem State.nodup_candidates {s : State} (h : s.canonical = true) : s.candidates.Nodup := by
  obtain ⟨hsteps, -⟩ := (State.canonical_iff s).mp h
  obtain ⟨hrising, -⟩ := (Table.wf_iff _ _).mp hsteps
  unfold State.candidates List.Nodup
  rw [List.pairwise_map]
  exact (hrising.sublist List.filter_sublist).imp fun hlt => hlt.ne

theorem State.perm_foldr_placeInWalk (s : State) (ks : List Slot) : (ks.foldr s.placeInWalk []).Perm ks := by
  induction ks with
  | nil => exact .refl _
  | cons k ks ih => exact (s.perm_placeInWalk k _).trans (ih.cons k)

/-- A slot put into a walk it does not stand in leaves it in walk order. -/
theorem State.pairwise_placeInWalk {s : State} {k : Slot} {ks : List Slot} (h : ks.Pairwise (fun a b => s.before a b = true))
    (hk : k ∉ ks) : (s.placeInWalk k ks).Pairwise (fun a b => s.before a b = true) := by
  induction ks with
  | nil => exact List.pairwise_singleton _ _
  | cons x xs ih =>
    obtain ⟨hx, hxs⟩ := List.pairwise_cons.mp h
    obtain ⟨hne, hk⟩ := not_or.mp (mt List.mem_cons.mpr hk)
    unfold State.placeInWalk
    by_cases hbefore : s.before k x = true
    · rw [if_pos hbefore]
      refine List.pairwise_cons.mpr ⟨fun y hy => ?_, h⟩
      rcases List.mem_cons.mp hy with rfl | hy
      · exact hbefore
      · exact State.before_trans hbefore (hx y hy)
    · have hafter : s.before x k = true := by
        rcases s.before_total k x with h' | h' | h'
        · exact absurd h' hbefore
        · exact h'
        · exact absurd h' hne
      rw [if_neg hbefore]
      refine List.pairwise_cons.mpr ⟨fun y hy => ?_, ih hxs hk⟩
      rcases List.mem_cons.mp ((s.perm_placeInWalk k xs).subset hy) with rfl | hy
      · exact hafter
      · exact hx y hy

theorem State.pairwise_foldr_placeInWalk {s : State} {ks : List Slot} (h : ks.Nodup) :
    (ks.foldr s.placeInWalk []).Pairwise (fun a b => s.before a b = true) := by
  induction ks with
  | nil => exact .nil
  | cons k ks ih =>
    obtain ⟨hk, hks⟩ := List.nodup_cons.mp h
    exact State.pairwise_placeInWalk (ih hks) fun hmem => hk ((s.perm_foldr_placeInWalk ks).subset hmem)

theorem State.before_iff (s : State) (a b : Slot) : s.before a b = true ↔
    if s.run.summary.reverse then s.keyAt b < s.keyAt a ∨ (s.keyAt b = s.keyAt a ∧ b < a)
    else s.keyAt a < s.keyAt b ∨ (s.keyAt a = s.keyAt b ∧ a < b) := by
  unfold State.before
  split <;> exact decide_eq_true_iff

theorem RunMode.measures_iff (mode : RunMode) (kind : StepKind) : mode.measures kind = true ↔
    mode = .test ∨ (mode = .contact ∧ kind = .contact) ∨ (mode = .learn ∧ kind = .measure) := by
  revert mode kind
  rintro (_ | _ | _) (_ | _) <;> decide

theorem State.mem_candidates_iff {s : State} (h : s.canonical = true) (k : Slot) :
    k ∈ s.candidates ↔ ∃ r, s.recordAt k = some r ∧ r.status = .ready ∧ (s.slotAt k).runMark = false
      ∧ s.run.summary.mode.measures r.program.kind = true := by
  rw [State.slot_mem_candidates h]
  unfold StepSlot.isCandidate State.recordAt
  cases (s.slotAt k).record with
  | none => simp
  | some r =>
    simp only [Bool.and_eq_true, Bool.not_eq_true', decide_eq_true_eq, Option.some.injEq, exists_eq_left']
    tauto

/-- Settles O51. -/
theorem windowIsFirstEightInWalkOrder : Obligations.WindowIsFirstEightInWalkOrder := by
  refine ⟨RunMode.measures_iff, fun s k r hr => ?_, fun s hcanon => ⟨s.perm_foldr_placeInWalk _, State.mem_candidates_iff hcanon,
    (State.pairwise_foldr_placeInWalk (State.nodup_candidates hcanon)).imp fun hab => (s.before_iff _ _).mp hab, rfl⟩⟩
  unfold State.keyAt
  rw [hr]
  rfl

/-! ## The tests of an entry (R95 to R102) -/

theorem mem_allLanes (l : LaneNo) : l ∈ allLanes := by
  revert l
  decide

theorem State.touchesDeadCard_iff (s : State) (r : StepRecord) : s.touchesDeadCard r = true ↔
    ∃ n ∈ r.program.nails.toList, ∃ c : CardNo, c.val = n.val / 256 ∧ (s.cardAt c).state ≠ .online := by
  unfold State.touchesDeadCard
  rw [List.any_eq_true]
  refine exists_congr fun n => and_congr_right fun _ => ?_
  unfold State.nailOnline
  rw [Bool.not_eq_true', decide_eq_false_iff_not]
  constructor
  · exact fun h => ⟨cardOf n, rfl, h⟩
  · rintro ⟨c, hc, h⟩
    obtain rfl : c = cardOf n := Fin.ext hc
    exact h

theorem State.touchesSuspect_iff (s : State) (r : StepRecord) : s.touchesSuspect r = true ↔
    ∃ e ∈ r.program.nails.entries, (s.nailAt e.2).state = .suspect ∧ ¬ (e.1 = .srcHi ∧ r.program.kind = .contact) := by
  unfold State.touchesSuspect
  simp only [List.any_eq_true, Bool.and_eq_true, Bool.not_eq_true', decide_eq_true_eq, Bool.and_eq_false_iff,
    decide_eq_false_iff_not, not_and_or]

theorem NailEntry.unbound_iff (e : NailEntry) :
    e.bindings.toList.all Option.isNone = true ↔ ∀ l : LaneNo, e.bindings[l] = none := by
  have hnone : e.bindings.toList.all Option.isNone = !e.isBound := by
    unfold NailEntry.isBound
    rw [List.all_eq_not_any_not]
    refine congrArg (! List.any _ ·) (funext fun o => ?_)
    cases o <;> rfl
  rw [hnone, Bool.not_eq_true', Bool.eq_false_iff, Ne, e.isBound_iff]
  simp

theorem State.bindable_iff (s : State) (l : LaneNo) (nails : NailList) : s.bindable l nails = true ↔
    ∀ n ∈ nails.toList,
      if (s.nailAt n).common then (s.nailAt n).bindings[l] = none else ∀ m : LaneNo, (s.nailAt n).bindings[m] = none := by
  unfold State.bindable
  rw [List.all_eq_true]
  refine forall_congr' fun n => imp_congr_right fun _ => ?_
  cases (s.nailAt n).common with
  | true => exact Option.isNone_iff_eq_none
  | false => exact NailEntry.unbound_iff _

/-- An IDLE lane stands in no binding, so the common nails of a list do not matter. -/
theorem State.bindable_iff_of_clean {s : State} (h : s.idleLanesClean) {l : LaneNo} (hidle : (s.laneAt l).phase = .idle)
    (nails : NailList) : s.bindable l nails = true ↔
      ∀ n ∈ nails.toList, (s.nailAt n).common = false → ∀ m : LaneNo, (s.nailAt n).bindings[m] = none := by
  obtain ⟨-, hunbound⟩ := h l hidle
  rw [State.bindable_iff]
  refine forall_congr' fun n => imp_congr_right fun _ => ?_
  cases (s.nailAt n).common with
  | true => simpa using hunbound n
  | false => simp

theorem State.barrierHeld_iff (s : State) :
    s.barrierHeld = true ↔ ∃ l k x, s.heldBy l = some (k, x) ∧ x.program.barrier = true := by
  unfold State.barrierHeld
  rw [List.any_eq_true]
  constructor
  · rintro ⟨l, -, hl⟩
    cases hheld : s.heldBy l with
    | none => rw [hheld] at hl; cases hl
    | some kx =>
      rw [hheld] at hl
      exact ⟨l, kx.1, kx.2, hheld, hl⟩
  · rintro ⟨l, k, x, hheld, hx⟩
    exact ⟨l, mem_allLanes l, by rw [hheld]; exact hx⟩

theorem State.idleLane_of_lowest {s : State} {l : LaneNo} (h : (s.laneAt l).phase = .idle)
    (hlow : ∀ m, m < l → (s.laneAt m).phase ≠ .idle) : s.idleLane = some l := by
  unfold State.idleLane allLanes
  simp only [List.find?_cons]
  match l with
  | 0 => simp [h]
  | 1 => simp [h, hlow 0 (by decide)]
  | 2 => simp [h, hlow 0 (by decide), hlow 1 (by decide)]
  | 3 => simp [h, hlow 0 (by decide), hlow 1 (by decide), hlow 2 (by decide)]

/-! ## The examination of the window (R93) -/

theorem State.examine_append {s : State} {before : List Slot} (h : ∀ j ∈ before, s.passedOver j = true) (front : Bool)
    (rest : List Slot) : s.examine front (before ++ rest) = s.examine (front && before.isEmpty) rest := by
  induction before generalizing front with
  | nil => simp
  | cons x xs ih =>
    obtain ⟨hx, hxs⟩ := List.forall_mem_cons.mp h
    rw [List.cons_append, State.examine_passes hx, ih hxs]
    simp

section
variable {s : State} {k : Slot} {r : StepRecord} (front : Bool) (rest : List Slot)

theorem State.examine_deadCard (hr : s.recordAt k = some r) (hdead : s.touchesDeadCard r = true) :
    s.examine front (k :: rest) = .skip k .skipCard := by
  unfold State.examine
  simp only [hr, hdead, if_true]

theorem State.examine_suspect (hr : s.recordAt k = some r) (hdead : s.touchesDeadCard r = false)
    (hsuspect : s.touchesSuspect r = true) : s.examine front (k :: rest) = .skip k .skipNail := by
  unfold State.examine
  simp only [hr, hdead, hsuspect, if_true, Bool.false_eq_true, if_false]

theorem State.examine_barrier (hr : s.recordAt k = some r) (hdead : s.touchesDeadCard r = false)
    (hsuspect : s.touchesSuspect r = false) (hbarrier : r.program.barrier = true) :
    s.examine front (k :: rest) =
      if front && s.allLanesIdle && s.bindable 0 r.program.nails then .dispatch k 0 else .nothing := by
  conv_lhs => unfold State.examine
  simp only [hr, hdead, hsuspect, hbarrier, if_true, Bool.false_eq_true, if_false]

theorem State.examine_bindable {l : LaneNo} (hr : s.recordAt k = some r) (hdead : s.touchesDeadCard r = false)
    (hsuspect : s.touchesSuspect r = false) (hbarrier : r.program.barrier = false) (hheld : s.barrierHeld = false)
    (hlane : s.idleLane = some l) (hbind : s.bindable l r.program.nails = true) :
    s.examine front (k :: rest) = .dispatch k l := by
  unfold State.examine
  simp only [hr, hdead, hsuspect, hbarrier, hheld, hlane, hbind, if_true, Bool.false_eq_true, if_false]

end

/-- Settles O52. -/
theorem firstActingTestDecides : Obligations.FirstActingTestDecides := by
  refine ⟨fun s r => ⟨s.touchesDeadCard_iff r, s.touchesSuspect_iff r, fun l => s.bindable_iff l _,
    fun l hclean hidle => State.bindable_iff_of_clean hclean hidle _, s.barrierHeld_iff⟩,
    fun s front before after k r hbefore hr => ?_⟩
  have happend := fun rest => State.examine_append hbefore front rest
  refine ⟨fun hdead => ?_, fun hdead hsuspect => ?_, fun hdead hsuspect hbarrier => ⟨?_, fun hnot => ?_⟩,
    fun l hdead hsuspect hbarrier hheld hidle hlow hbind => ?_, fun hpassed => ?_⟩
  · rw [happend, State.examine_deadCard _ _ hr hdead]
  · rw [happend, State.examine_suspect _ _ hr hdead hsuspect]
  · rintro ⟨hbind, rfl, rfl, hidle⟩
    rw [happend, State.examine_barrier _ _ hr hdead hsuspect hbarrier, hbind, hidle]
    rfl
  · rw [happend, State.examine_barrier _ _ hr hdead hsuspect hbarrier, if_neg]
    rcases hnot with rfl | hne | hbusy
    · simp
    · simp [hne]
    · simp [hbusy]
  · rw [happend, State.examine_bindable _ _ hr hdead hsuspect hbarrier hheld (State.idleLane_of_lowest hidle hlow) hbind]
  · rw [happend, State.examine_passes hpassed]

end Sys2Proof.Machine
end

section
/-! CERTIFICATE. The acts of an examination step: a skip verdict, and a dispatch with its first CLOSE. -/

namespace Sys2Proof.Machine

/-! ## Skip verdicts (R97, R152) -/

theorem skip_afterVerdict (st : StepStats) (mode : RunMode) (number : BitVec 16) {v : Verdict}
    (h : v = .skipCard ∨ v = .skipNail) :
    st.afterVerdict mode number (VerdictWrite.bare v none) =
      { st with
        lastVerdict := some v, lastValue := none, lastDeviation := none, lastRange := none, lastRun := some number } := by
  rcases h with rfl | rfl <;> rfl

/-- A verdict that is neither PASS nor NO_CONTACT leaves the Nail Map. -/
theorem State.recordVerdict_skip {s : State} {k : Slot} {r : StepRecord} {v : Verdict} (hr : s.recordAt k = some r)
    (h : v = .skipCard ∨ v = .skipNail) :
    s.recordVerdict k (VerdictWrite.bare v none) =
      (s.setSlot k
        { runMark := true
          record := some { r with
            stats := r.stats.afterVerdict s.run.summary.mode s.run.number (VerdictWrite.bare v none) } }).countVerdict v := by
  unfold State.recordVerdict
  rw [hr]
  dsimp only
  cases r.program.kind <;> rcases h with rfl | rfl <;> rfl

theorem exec_examinationStep {s : State} (hrunning : s.run.state = .running) (hexam : s.exam = .examining) :
    exec .examinationStep s = .next s.examinationStep := by
  show execExaminationStep s = _
  unfold execExaminationStep
  rw [hexam]
  exact if_pos hrunning

theorem State.examinationStep_skip {s : State} {k : Slot} {v : Verdict} (h : s.examine true s.window = .skip k v) :
    s.examinationStep = s.skip k v := by
  unfold State.examinationStep
  rw [h]

theorem State.examinationStep_dispatch {s : State} {k : Slot} {l : LaneNo} (h : s.examine true s.window = .dispatch k l) :
    s.examinationStep = s.dispatch k l := by
  unfold State.examinationStep
  rw [h]

theorem State.examinationStep_nothing {s : State} (h : s.examine true s.window = .nothing) :
    s.examinationStep = { s with exam := .waiting } := by
  unfold State.examinationStep
  rw [h]

theorem State.port_testRunEnd (s : State) : SamePort s s.testRunEnd := by
  rw [State.testRunEnd_frame]; exact ⟨rfl, rfl, rfl⟩

/-- Settles O53. -/
theorem skipVerdictIsRecorded : Obligations.SkipVerdictIsRecorded := by
  intro s k r v hrunning hexam hexamine hr hv
  have hstep : exec .examinationStep s = .next (s.recordVerdict k (VerdictWrite.bare v none)).testRunEnd := by
    rw [exec_examinationStep hrunning hexam, State.examinationStep_skip hexamine]
    rfl
  rw [State.recordVerdict_skip hr hv, skip_afterVerdict _ _ _ hv] at hstep
  refine ⟨_, hstep, ?_, fun j hj => ?_, State.nails_testRunEnd _, ?_,
    State.testRunEnd_tested ((s.setSlot k _).countVerdict v), ?_, ?_, State.port_testRunEnd _⟩
  · rw [State.slotAt_congr (State.steps_testRunEnd _)]
    rw [State.countVerdict, State.slotAt_setSummary, State.slotAt_setSlot_self]
  · rw [State.slotAt_congr (State.steps_testRunEnd _)]
    rw [State.countVerdict, State.slotAt_setSummary, State.slotAt_setSlot, if_neg hj]
  · rw [State.exam_testRunEnd]
    exact hexam
  · exact SameLinks.trans ⟨rfl, rfl, rfl, rfl, rfl⟩ (.testRunEnd _)
  · exact SameSettings.trans ⟨rfl, rfl, rfl, rfl, rfl⟩ (.testRunEnd _)

/-! ## The arbitration of one request (R159) -/

theorem State.waits_of_other {s t : State} {l : LaneNo} (hlanes : OtherLanesSame s t l) (hcensus : t.census = s.census)
    {r : Fin 5} (h : r ≠ rankOfLane l) : t.waits r = s.waits r := by
  unfold State.waits
  cases hrank : laneOfRank r with
  | none => dsimp only; rw [hcensus]
  | some m =>
    have hm : m ≠ l := fun heq => h (heq ▸ (laneOfRank_eq_some r m).mp hrank)
    dsimp only
    rw [hlanes m hm]

/-- An event that placed the request of one lane, to an ONLINE card, on a link that nobody else waits for: it is granted if
the link is free. -/
theorem State.arbitrate_one {t : State} {l : LaneNo} {c : LinkCommand} (hrequest : (t.laneAt l).linkRequest = .waiting)
    (hothers : t.link.inFlight = none → ∀ r, r ≠ rankOfLane l → t.waits r = false) (hcommand : t.laneCommand l = some c)
    (honline : (t.cardAt c.card).state = .online) :
    t.arbitrate =
      ({ t with link := if t.link.inFlight = none then t.linkSending (rankOfLane l) c else t.link } : State).setLane l
        { t.laneAt l with linkRequest := if t.link.inFlight = none then .inFlight else .waiting } := by
  by_cases hfree : t.link.inFlight = none
  · have hnext : t.nextWaiting t.link.lastGranted = some (rankOfLane l) := by
      cases hfound : t.nextWaiting t.link.lastGranted with
      | none =>
        have hnobody := (State.nextWaiting_eq_none t _).mp hfound (rankOfLane l)
        rw [State.waits_lane, hrequest] at hnobody
        cases hnobody
      | some r =>
        obtain ⟨hwaits, -⟩ := State.nextWaiting_eq_some hfound
        by_contra hne
        rw [hothers hfree r fun heq => hne (congrArg some heq)] at hwaits
        cases hwaits
    rw [if_pos hfree, if_pos hfree]
    exact State.grantFrom_sends 4 hfree hnext hcommand honline
  · rw [if_neg hfree, if_neg hfree, ← hrequest]
    exact (State.grantFrom_of_busy _ _ (Option.isSome_iff_ne_none.mpr hfree)).trans (State.setLane_laneAt t l).symm

/-! ## Dispatch (R103) -/

theorem NailList.srcHi_mem (nails : NailList) : nails.srcHi ∈ nails.toList := List.mem_cons_self

section
variable (s : State) (k : Slot) (l : LaneNo) (r : StepRecord)

theorem State.dispatched_frame : ∃ steps nails, s.dispatched k l r =
    ({ s with
        steps := steps, nails := nails
        run := { s.run with summary := { s.run.summary with dispatched := s.run.summary.dispatched + 1 } } } : State).setLane l
      (Lane.taking k r.program.timing.baseRange.val) := by
  unfold State.dispatched
  rw [State.bindNails_frame]
  exact ⟨_, _, rfl⟩

theorem State.slotAt_dispatched (j : Slot) : (s.dispatched k l r).slotAt j =
    if j = k then { runMark := true, record := some { r with status := .held false none false } } else s.slotAt j := by
  have hbound : (s.bindNails l r.program.nails.entries).slotAt j = s.slotAt j :=
    State.slotAt_congr (by rw [State.bindNails_frame]) j
  unfold State.dispatched
  dsimp only
  rw [State.slotAt_setLane, State.slotAt_setSummary, State.slotAt_setSlot, hbound]

theorem State.nailAt_dispatched_named (hnodup : r.program.nails.toList.Nodup) {n : NailNo} {role : Role}
    (h : r.program.nails.roleOf n = some role) : (s.dispatched k l r).nailAt n =
      { s.nailAt n with bindings := (s.nailAt n).bindings.set l.val (some role) l.isLt } :=
  State.nailAt_bindNails_of_named s l _ role n hnodup ((NailList.roleOf_eq_some _ hnodup n role).mp h)

theorem NailList.roleOf_eq_none_iff (nails : NailList) (n : NailNo) : nails.roleOf n = none ↔ n ∉ nails.toList := by
  rw [NailList.roleOf_eq_none, Bool.eq_false_iff, Ne, NailList.names_iff]

theorem State.nailAt_dispatched_other {n : NailNo} (h : r.program.nails.roleOf n = none) :
    (s.dispatched k l r).nailAt n = s.nailAt n :=
  State.nailAt_bindNails_of_not_named s l _ n ((NailList.roleOf_eq_none_iff _ n).mp h)

theorem State.otherLanesSame_dispatched : OtherLanesSame s (s.dispatched k l r) l := fun m hm => by
  rw [State.laneAt_dispatched, if_neg hm]

theorem State.laneCommand_dispatched : (s.dispatched k l r).laneCommand l =
    some (.close (cardOf r.program.nails.srcHi) (crosspointOf r.program.nails.srcHi) l .srcHi) := by
  have hlane : (s.dispatched k l r).laneAt l = Lane.taking k r.program.timing.baseRange.val := by
    rw [State.laneAt_dispatched, if_pos rfl]
  have hheld : (s.dispatched k l r).heldBy l = some (k, { r with status := .held false none false }) := by
    refine (State.heldBy_eq_some _ _ _ _).mpr ⟨by rw [hlane]; rfl, ?_⟩
    unfold State.recordAt
    rw [State.slotAt_dispatched, if_pos rfl]
  unfold State.laneCommand State.heldNails
  rw [hlane, hheld]
  rfl

end

/-- Settles O54. -/
theorem dispatchBindsAndHolds : Obligations.DispatchBindsAndHolds := by
  refine ⟨fun s k l r hrunning hexam hexamine hr hnodup hserved => ?_, fun s hexam hnothing => ?_,
    fun nails n hnodup => ⟨NailList.roleOf_eq_some nails hnodup n, nails.roleOf_eq_none_iff n⟩⟩
  · obtain ⟨steps, nails, hframe⟩ := s.dispatched_frame k l r
    have hlane : (s.dispatched k l r).laneAt l = Lane.taking k r.program.timing.baseRange.val := by
      rw [State.laneAt_dispatched, if_pos rfl]
    have hlink : (s.dispatched k l r).link = s.link := by rw [hframe]; rfl
    have hcensus : (s.dispatched k l r).census = s.census := by rw [hframe]; rfl
    have hcards : (s.dispatched k l r).cards = s.cards := by rw [hframe]; rfl
    have hsettings : SameSettings s (s.dispatched k l r) := by rw [hframe]; exact ⟨rfl, rfl, rfl, rfl, rfl⟩
    obtain ⟨-, -, r', hr', hcard, -⟩ := State.examine_dispatch hexamine
    obtain rfl : r = r' := Option.some.inj (hr.symm.trans hr')
    have honline : ((s.dispatched k l r).cardAt (cardOf r.program.nails.srcHi)).state = .online := by
      by_contra hoff
      rw [State.cardAt_congr hcards] at hoff
      rw [(s.touchesDeadCard_iff r).mpr ⟨_, r.program.nails.srcHi_mem, _, rfl, hoff⟩] at hcard
      cases hcard
    have hgrant := State.arbitrate_one (by rw [hlane]; rfl)
      (fun hfree x hx => by
        rw [State.waits_of_other (s.otherLanesSame_dispatched k l r) hcensus hx]
        exact hserved (hlink ▸ hfree) x)
      (s.laneCommand_dispatched k l r) honline
    have hstep : exec .examinationStep s = .next (s.dispatched k l r).arbitrate := by
      rw [exec_examinationStep hrunning hexam, State.examinationStep_dispatch hexamine, State.dispatch_eq hr]
    rw [hgrant, hlink, hlane] at hstep
    refine ⟨_, hstep, ?_, fun j hj => ?_, fun n => ?_, ?_, ?_, fun m hm => ?_, fun hfree => ?_,
        fun hbusy => if_neg hbusy, ?_, ?_, ?_,
      ?_, ?_, ?_, ?_⟩
    · exact (s.slotAt_dispatched k l r k).trans (if_pos rfl)
    · exact (s.slotAt_dispatched k l r j).trans (if_neg hj)
    · cases hrole : r.program.nails.roleOf n with
      | none => exact s.nailAt_dispatched_other k l r hrole
      | some role => exact s.nailAt_dispatched_named k l r hnodup hrole
    · rw [hframe]; rfl
    · exact State.laneAt_setLane_self _ _ _
    · exact (State.laneAt_setLane _ _ _ _).trans ((if_neg hm).trans (s.otherLanesSame_dispatched k l r m hm))
    · refine (congrArg Link.inFlight (if_pos hfree)).trans ?_
      obtain ⟨-, -, hset, -⟩ := hsettings
      unfold State.linkSending
      rw [hset]
      rfl
    · rw [hframe]; exact hexam
    · rw [hframe]; rfl
    · rw [hframe]; rfl
    · exact hcards
    · exact hcensus
    · exact hsettings
    · rw [hframe]; exact ⟨rfl, rfl, rfl⟩
  · show execExaminationStep s = _
    unfold execExaminationStep
    rw [hexam]
    dsimp only
    by_cases hrunning : s.run.state = .running
    · rw [if_pos hrunning, State.examinationStep_nothing (hnothing.resolve_left (not_not.mpr hrunning))]
    · rw [if_neg hrunning]

end Sys2Proof.Machine
end

section
/-! CERTIFICATE. Run control: RUN START, the drain manner of RUN ABORT, and the filter of the fixture input. -/

namespace Sys2Proof.Machine

/-! ## RUN START (R65 to R67, R74) -/

theorem RunMode.ofByte_eq_some {b : Byte} {mode : RunMode} : RunMode.ofByte b = some mode ↔ b.toNat = mode.code := by
  revert mode
  unfold RunMode.ofByte
  split <;> rintro (_ | _ | _) <;> simp_all [RunMode.code]

theorem RunMode.ofByte_eq_none {b : Byte} (h : ∀ mode : RunMode, b.toNat ≠ mode.code) : RunMode.ofByte b = none :=
  Option.eq_none_iff_forall_ne_some.mpr fun mode hmode => h mode (RunMode.ofByte_eq_some.mp hmode)

theorem RunState.active_iff (st : RunState) : st.active = true ↔ st = .armed ∨ st = .running ∨ st = .draining := by
  cases st <;> simp [RunState.active]

theorem RunEndTested.of_testRunEnd {t : State} {run : RunControl} {latches : Conditions} (hrun : t.run = run)
    (hlatches : t.latches = latches) : RunEndTested run latches t.testRunEnd := by
  subst hrun hlatches
  exact t.testRunEnd_tested

theorem storedWeight_val (b : Byte) : (storedWeight b).val = min 3 b.toNat := by
  unfold storedWeight
  split_ifs with h
  · exact (min_eq_right (by omega)).symm
  · exact (min_eq_left (by omega)).symm

/-- The state of an accepted RUN START before a closed fixture takes the run into RUNNING. -/
def State.armedFor (s : State) (mode : RunMode) (reverse : Bool) (weight : Fin 4) : State :=
  { s.clearMarks with
    run :=
      { s.run with
        state := .armed
        number := s.run.number + 1
        summary := { RunSummary.cleared with mode := mode, reverse := reverse, weight := weight } } }

/-- The entry into RUNNING before the run's end is tested. -/
def State.runningNow (s : State) : State :=
  { s with run := { s.run with state := .running }, exam := .examining }

theorem State.enterRunning_eq (s : State) : s.enterRunning = s.runningNow.testRunEnd := by
  unfold State.enterRunning State.reportOpportunity
  rw [if_pos rfl]
  rfl

section
variable {s : State} {mode : RunMode} {reverse : Bool} {weight : Fin 4}

theorem State.startRun_opened (h : s.run.fixture = .opened) : s.startRun mode reverse weight = s.armedFor mode reverse weight :=
  if_neg (by rw [h]; decide)

theorem State.startRun_closed (h : s.run.fixture = .closed) :
    s.startRun mode reverse weight = (s.armedFor mode reverse weight).runningNow.testRunEnd := by
  rw [← State.enterRunning_eq]
  exact if_pos h

theorem State.steps_startRun : (s.startRun mode reverse weight).steps = s.clearMarks.steps := by
  cases h : s.run.fixture with
  | opened => rw [State.startRun_opened h]; rfl
  | closed => rw [State.startRun_closed h, State.steps_testRunEnd]; rfl

theorem State.nails_startRun : (s.startRun mode reverse weight).nails = s.nails := by
  cases h : s.run.fixture with
  | opened => rw [State.startRun_opened h]; rfl
  | closed => rw [State.startRun_closed h, State.nails_testRunEnd]; rfl

theorem SameSettings.startRun : SameSettings s (s.startRun mode reverse weight) := by
  cases h : s.run.fixture with
  | opened => rw [State.startRun_opened h]; exact ⟨rfl, rfl, rfl, rfl, rfl⟩
  | closed => rw [State.startRun_closed h]; exact SameSettings.trans ⟨rfl, rfl, rfl, rfl, rfl⟩ (.testRunEnd _)

theorem State.number_startRun : (s.startRun mode reverse weight).run.number = s.run.number + 1 := by
  cases h : s.run.fixture with
  | opened => rw [State.startRun_opened h]; rfl
  | closed =>
    obtain ⟨hnumber, -⟩ := State.testRunEnd_run_kept (s.armedFor mode reverse weight).runningNow
    rw [State.startRun_closed h, hnumber]
    rfl

end

section
variable {body : List Byte} {s : State}

theorem runStartOwner_starts {mode : RunMode} (hlength : body.length = 3) (hactive : s.run.state.active = false)
    (hcensus : s.census = none) (hmode : (byteAt body 0).toNat = mode.code) :
    runStartOwner body s =
      (s.startRun mode ((byteAt body 1).getLsbD 0) (storedWeight (byteAt body 2)),
        .reply .ok (bytes16 (s.run.number + 1)
          ++ [byteOf (s.startRun mode ((byteAt body 1).getLsbD 0) (storedWeight (byteAt body 2))).run.state.code,
              byteOf (storedWeight (byteAt body 2)).val])) := by
  unfold runStartOwner
  dsimp only
  rw [RunMode.ofByte_eq_some.mpr hmode,
    firstFailing_append,
    settingsChecks_pass hlength hactive hcensus, ← State.number_startRun]
  rfl

theorem runStartOwner_busy (hlength : body.length = 3) (hactive : s.run.state.active = true) :
    runStartOwner body s = (s, refuse .busy) := by
  unfold runStartOwner State.busyChecks lengthCheck
  simp [firstFailing, hlength, hactive]

theorem runStartOwner_notReady (hlength : body.length = 3) (hactive : s.run.state.active = false) (hcensus : s.census ≠ none) :
    runStartOwner body s = (s, refuse .notReady) := by
  have hsome : s.census.isSome = true := Option.isSome_iff_ne_none.mpr hcensus
  unfold runStartOwner State.busyChecks lengthCheck
  simp [firstFailing, hlength, hactive, hsome]

theorem runStartOwner_badRequest (hlength : body.length = 3) (hactive : s.run.state.active = false) (hcensus : s.census = none)
    (hmode : ∀ mode : RunMode, (byteAt body 0).toNat ≠ mode.code) : runStartOwner body s = (s, refuse .badRequest) := by
  unfold runStartOwner
  dsimp only
  rw [RunMode.ofByte_eq_none hmode, firstFailing_append,
    settingsChecks_pass hlength hactive hcensus]
  rfl

end

/-- Settles O44. -/
theorem runStartClearsAndStarts : Obligations.RunStartClearsAndStarts := by
  refine ⟨RunState.active_iff, fun s f htakes hlength => ⟨fun mode hcanon hactive hcensus hmode => ?_, fun hactive => ?_,
    fun hactive hcensus => ?_, fun hactive hcensus hmode => ?_⟩⟩
  · refine ⟨_, exec_of_reply rfl htakes (by omega) (runStartOwner_starts (s := s.taken f) hlength hactive hcensus hmode),
      fun k => ?_, ?_, fun hfixture => ?_, fun hfixture => ?_, storedWeight_val _, ?_, ?_, ?_⟩
    · rw [State.slotAt_replied, State.slotAt_congr State.steps_startRun]
      exact State.slotAt_clearMarks (s := s.taken f) hcanon k
    · exact State.nails_startRun
    · rw [State.run_replied, State.exam_replied, State.latches_replied, State.startRun_opened (s := s.taken f) hfixture]
      exact ⟨rfl, rfl, rfl⟩
    · rw [State.startRun_closed (s := s.taken f) hfixture, State.exam_replied, State.exam_testRunEnd]
      exact ⟨(RunEndTested.of_testRunEnd (by rfl) (by rfl)).replied _ _ _ _, rfl⟩
    · exact (SameLinks.startRun _ _ _ _).replied _ _ _ _
    · exact SameSettings.startRun.replied _ _ _ _
    · exact State.port_replied _ _ _ _
  · exact exec_of_reply rfl htakes (by omega) (runStartOwner_busy (s := s.taken f) hlength hactive)
  · exact exec_of_reply rfl htakes (by omega) (runStartOwner_notReady (s := s.taken f) hlength hactive hcensus)
  · exact exec_of_reply rfl htakes (by omega) (runStartOwner_badRequest (s := s.taken f) hlength hactive hcensus hmode)

/-! ## RUN ABORT (R78 to R81) -/

section
variable {body : List Byte} {s : State}

theorem runAbortOwner_notActive (hlength : body.length = 1) (h : s.run.state.active = false) :
    runAbortOwner body s = (s, refuse .notActive) := by
  unfold runAbortOwner lengthCheck
  simp [firstFailing, hlength, h]

/-- The reply to an accepted RUN ABORT: the run state and abort reason it leaves. -/
def State.abortReply (t : State) : Answer :=
  .reply .ok [byteOf t.run.state.code, byteOf (abortReasonCode t.run.summary.abortReason)]

theorem runAbortOwner_active (hlength : body.length = 1) (h : s.run.state.active = true) {t : State}
    (ht : (if (byteAt body 0).getLsbD 0 then
        if s.run.state = .armed then s.abortArmed .forceRequest else s.abortForce .forceRequest
      else s.abortDrain) = t) : runAbortOwner body s = (t, t.abortReply) := by
  have hpass : firstFailing [lengthCheck body 1, (!s.run.state.active, .notActive)] = none := by
    simp [lengthCheck, firstFailing, hlength, h]
  unfold runAbortOwner
  rw [hpass, ← ht]
  rfl

end

/-- The run's end tested leaves the abort reason. -/
theorem State.abortReason_testRunEnd (s : State) :
    s.testRunEnd.run.summary.abortReason = s.run.summary.abortReason := by
  obtain ⟨-, -, -, -, -, hreason⟩ := s.testRunEnd_run_kept
  exact hreason

/-- Settles O45. -/
theorem drainStopsDispatching : Obligations.DrainStopsDispatching := by
  intro s f htakes hlength hmanner
  have hexec {t : State} (hactive : s.run.state.active = true) (ht : (s.taken f).abortDrain = t) :
      exec (.runAbortDrain f) s = .next (t.replied 0x41 f .ok
        [byteOf t.run.state.code, byteOf (abortReasonCode t.run.summary.abortReason)]) :=
    exec_of_reply (owner := runAbortOwner) rfl htakes (by omega)
      (runAbortOwner_active (s := s.taken f) hlength hactive (by rw [hmanner]; exact ht))
  refine ⟨fun hrunning => ?_, fun harmed => ?_, fun hdraining => ?_, fun hactive => ?_⟩
  · have hdrain : (s.taken f).abortDrain = ((s.taken f).drain .drainRequest).testRunEnd := by
      unfold State.abortDrain
      rw [show (s.taken f).run.state = .running from hrunning]
    refine ⟨_, hexec (by rw [hrunning]; rfl) hdrain, (RunEndTested.of_testRunEnd (by rfl) (by rfl)).replied _ _ _ _,
        ⟨?_, ?_⟩, ?_, ?_, ?_, ?_⟩
    · exact State.steps_testRunEnd _
    · exact State.nails_testRunEnd _
    · exact (SameLinks.trans (t := (s.taken f).drain .drainRequest) ⟨rfl, rfl, rfl, rfl, rfl⟩ (.testRunEnd _)).replied _ _ _ _
    · exact (SameSettings.trans (t := (s.taken f).drain .drainRequest) ⟨rfl, rfl, rfl, rfl, rfl⟩ (.testRunEnd _)).replied _ _ _ _
    · rw [State.exam_replied, State.exam_testRunEnd]
      rfl
    · rw [State.port_replied, State.run_replied, State.abortReason_testRunEnd]
      rfl
  · have hdrain : (s.taken f).abortDrain = (s.taken f).abortArmed .drainRequest := by
      unfold State.abortDrain
      rw [show (s.taken f).run.state = .armed from harmed]
    exact ⟨_, hexec (by rw [harmed]; rfl) hdrain, rfl, rfl, ⟨rfl, rfl⟩, ⟨rfl, rfl, rfl, rfl, rfl⟩, ⟨rfl, rfl, rfl, rfl, rfl⟩, rfl,
      rfl⟩
  · have hdrain : (s.taken f).abortDrain = s.taken f := by
      unfold State.abortDrain
      rw [show (s.taken f).run.state = .draining from hdraining]
    rw [hexec (by rw [hdraining]; rfl) hdrain, show (s.taken f).run = s.run from rfl, hdraining]
    rfl
  · exact exec_of_reply rfl htakes (by omega) (runAbortOwner_notActive (s := s.taken f) hlength hactive)

/-! ## The filter of the fixture input (R70, R71) -/

/-- A filtered change cancels the interval, whatever its count. -/
theorem State.fixtureChanged_filterTimer (s : State) (f : FixtureState) (timer : Option Nat) :
    ({ s with run := { s.run with filterTimer := timer } } : State).fixtureChanged f = s.fixtureChanged f := rfl

theorem exec_fxcChange {s : State} {high : Bool} (h : high ≠ s.run.rawHigh) :
    exec (.fxcChange high) s = .next (s.rawChanged high) := if_neg h

theorem exec_fxcFilterExpiry {s : State} {ticks : Nat} (h : s.run.filterTimer = some ticks) :
    exec .fxcFilterExpiry s = .next (s.fixtureChanged (fixtureOf s.run.rawHigh)) := by
  show execFxcFilterExpiry s = _
  unfold execFxcFilterExpiry
  rw [h]

/-- Settles O47. -/
theorem fixtureFilterFollowsRawLevel : Obligations.FixtureFilterFollowsRawLevel := by
  refine ⟨⟨rfl, rfl⟩, fun s high hchange => ⟨fun hback => ?_, fun ticks haway hticks => ?_, fun haway hcode => ?_⟩⟩
  · rw [exec_fxcChange hchange]
    unfold State.rawChanged
    rw [if_pos hback]
  · have hcount : filterTicks s.settings.filterCode = ticks ∧ ticks ≠ 0 := by
      simp only [List.mem_cons, Prod.mk.injEq, List.not_mem_nil, or_false] at hticks
      rcases hticks with ⟨hcode, rfl⟩ | ⟨hcode, rfl⟩ | ⟨hcode, rfl⟩ <;> rw [hcode] <;> decide
    obtain ⟨hcount, hpositive⟩ := hcount
    rw [exec_fxcChange hchange]
    unfold State.rawChanged
    dsimp only
    rw [if_neg haway, hcount, if_neg hpositive]
  · refine ⟨_, exec_fxcChange hchange, ?_⟩
    rw [exec_fxcFilterExpiry (ticks := 0) rfl]
    unfold State.rawChanged
    dsimp only
    rw [if_neg haway, hcode]
    exact congrArg Host.Outcome.next (State.fixtureChanged_filterTimer { s with run := { s.run with rawHigh := high } } _ _)

end Sys2Proof.Machine
end

section
/-! CERTIFICATE. The census on the Matrix Link, the card requests, and answers that the part cannot use. -/

namespace Sys2Proof.Machine

/-! ## The course of a census (R165, R166) -/

theorem State.waits_lane_of_noLaneWaits {s : State} (h : s.noLaneWaits = true) (l : LaneNo) :
    s.waits (rankOfLane l) = false := by
  have hl := List.all_eq_true.mp h l (mem_allLanes l)
  rw [State.waits_lane]
  simpa using hl

theorem State.nobodyWaits {s : State} (h : s.noLaneWaits = true) (hcensus : s.census = none) (r : Fin 5) :
    s.waits r = false := by
  cases hrank : laneOfRank r with
  | some l => rw [(laneOfRank_eq_some r l).mp hrank]; exact State.waits_lane_of_noLaneWaits h l
  | none =>
    unfold State.waits
    rw [hrank]
    dsimp only
    rw [hcensus]

/-- Census, link and latches are what a census event changes beside the cards. -/
def CensusOnly (s t : State) : Prop := ∃ census link latches, t = { s with census := census, link := link, latches := latches }

theorem CensusOnly.sameTables {s t : State} (h : CensusOnly s t) : SameTables s t := by
  obtain ⟨_, _, _, rfl⟩ := h; exact ⟨rfl, rfl⟩

theorem CensusOnly.sameSettings {s t : State} (h : CensusOnly s t) : SameSettings s t := by
  obtain ⟨_, _, _, rfl⟩ := h; exact ⟨rfl, rfl, rfl, rfl, rfl⟩

theorem CensusOnly.samePort {s t : State} (h : CensusOnly s t) : SamePort s t := by
  obtain ⟨_, _, _, rfl⟩ := h; exact ⟨rfl, rfl, rfl⟩

theorem CensusOnly.same {s t : State} (h : CensusOnly s t) :
    t.lanes = s.lanes ∧ t.ports = s.ports ∧ t.cards = s.cards ∧ t.run = s.run ∧ t.exam = s.exam := by
  obtain ⟨_, _, _, rfl⟩ := h; exact ⟨rfl, rfl, rfl, rfl, rfl⟩

/-- A request placed by the census engine on a free link that no lane waits for is granted. -/
theorem State.arbitrate_placed {s : State} (hfree : s.link.inFlight = none) (hlanes : s.noLaneWaits = true) {x : Census}
    (hx : x.request = .waiting) :
    ({ s with census := some x } : State).arbitrate =
      { s with census := some { x with request := .inFlight }, link := s.linkSending 4 x.command } :=
  State.arbitrate_census (s := { s with census := some x }) hlanes hfree rfl hx

/-- On a free link that no lane waits for, the census goes on to its next card or ends. -/
theorem State.censusNext_arbitrate {s : State} {x : Census} (hcensus : s.census = some x) (hfree : s.link.inFlight = none)
    (hlanes : s.noLaneWaits = true) :
    CensusOnly s s.censusNext.arbitrate ∧ CensusMovedOn x s.latches s.censusNext.arbitrate := by
  unfold CensusMovedOn
  cases hrest : x.remaining with
  | nil =>
    have hdone : s.censusNext.arbitrate = ({ s with census := none } : State).latch .censusDone := by
      rw [State.censusNext_ends hcensus hrest]
      exact State.grantFrom_of_nobody _ _ fun r => State.nobodyWaits (s := ({ s with census := none } : State).latch .censusDone)
        hlanes rfl r
    rw [hdone]
    exact ⟨⟨_, _, _, rfl⟩, rfl, hfree, rfl⟩
  | cons next rest =>
    rw [State.censusNext_goes_on hcensus hrest, State.arbitrate_placed hfree hlanes rfl]
    exact ⟨⟨_, _, _, rfl⟩, rfl, rfl, rfl, rfl⟩

/-! ## A card written (R154) -/

theorem State.otherCardsSame_setCard (s : State) (c : CardNo) (v : CardEntry) : OtherCardsSame s (s.setCard c v) c :=
  fun d hd => (State.cardAt_setCard s c v d).trans (if_neg hd)

theorem State.cardAt_of_cards {s t : State} (h : t.cards = s.cards) {c : CardNo} {v : CardEntry} (hv : s.cardAt c = v) :
    t.cardAt c = v := (State.cardAt_congr h c).trans hv

theorem OtherCardsSame.of_cards {s t u : State} {c : CardNo} (h : OtherCardsSame s t c) (hu : u.cards = t.cards) :
    OtherCardsSame s u c := fun d hd => (State.cardAt_congr hu d).trans (h d hd)

/-! ## The events of the census -/

section
variable {s : State} {f : InFlight} {c : CardNo}

theorem State.acknowledged_census (hflight : s.link.inFlight = some f) (hrank : f.requester = 4)
    (hcommand : f.command = .openAll c) : s.acknowledged c = (s.freeLink.censusOpened c).arbitrate := by
  unfold State.acknowledged
  rw [hflight]
  dsimp only
  rw [hcommand, hrank, if_pos ⟨rfl, rfl⟩]
  rfl

theorem State.described_valid {cardType operate release check : Byte} (hflight : s.link.inFlight = some f)
    (hcommand : f.command = .identify c) (hsum : cardType + operate + release + check = 0) :
    s.described c cardType operate release check =
      ({ s.freeLink.setCard c { s.freeLink.cardAt c with descriptor := some (storedDescriptor cardType operate release) } with
          census := s.freeLink.census.map (fun x => { x with stage := .openAll, request := .waiting }) } : State).arbitrate := by
  unfold State.described
  rw [hflight]
  dsimp only
  rw [hcommand, if_pos ⟨rfl, rfl⟩, validDescriptor, if_pos (decide_eq_true hsum)]

theorem State.described_invalid {cardType operate release check : Byte} (hflight : s.link.inFlight = some f)
    (hcommand : f.command = .identify c) (hsum : cardType + operate + release + check ≠ 0) :
    s.described c cardType operate release check =
      (((s.freeLink.setCard c { s.freeLink.cardAt c with checksumBad := true }).cardOffline c).censusNext).arbitrate := by
  unfold State.described
  rw [hflight]
  dsimp only
  rw [hcommand, if_pos ⟨rfl, rfl⟩, validDescriptor, if_neg (by rw [decide_eq_false hsum]; decide)]

theorem exec_censusTimeout (hflight : s.link.inFlight = some f) (hcommand : f.command = .identify c) :
    exec .censusTimeout s =
      .next (((s.freeLink.setCard c { s.cardAt c with state := .absent }).censusNext).arbitrate) := by
  show execCensusTimeout s = _
  unfold execCensusTimeout
  rw [hflight]
  dsimp only
  rw [hcommand]
  exact if_pos rfl

end

/-- Settles O38. -/
theorem openAllAcknowledgedPutsCardOnline : Obligations.OpenAllAcknowledgedPutsCardOnline := by
  intro s f c x hflight hrank hcommand hcensus hlanes
  let online : State := (s.freeLink.setCard c { s.cardAt c with state := .online }).reportOpportunity
  have honline : online = { s.freeLink.setCard c { s.cardAt c with state := .online } with
      exam := examAfter true s.run.state s.exam } := State.reportOpportunity_eq _
  obtain ⟨honly, hmoved⟩ := State.censusNext_arbitrate (s := online) (x := x) (by rw [honline]; exact hcensus)
    (by rw [honline]; rfl) (by rw [honline]; exact hlanes)
  obtain ⟨hsame, hports, hcards, hrun, hexam⟩ := honly.same
  have hstep : exec (.acknowledgement c) s = .next online.censusNext.arbitrate :=
    congrArg Host.Outcome.next (State.acknowledged_census hflight hrank hcommand)
  have hcard : online.cardAt c = { s.cardAt c with state := .online } := by
    rw [honline]; exact State.cardAt_setCard_self _ _ _
  have hothers : OtherCardsSame s online c := by
    rw [honline]; exact State.otherCardsSame_setCard s.freeLink c _
  rw [honline] at honly hmoved hsame hports hcards hrun hexam hstep hcard hothers
  exact ⟨_, hstep, State.cardAt_of_cards hcards hcard, hothers.of_cards hcards, hmoved, hexam, honly.sameTables,
      hsame, hports, hrun,
    honly.sameSettings, honly.samePort⟩

theorem storedTime_toNat (b : Byte) : (if b = 0 then (1 : Byte) else b).toNat = max 1 b.toNat := by
  split_ifs with h
  · rw [h]; rfl
  · have hpos : b.toNat ≠ 0 := fun hzero => h (BitVec.eq_of_toNat_eq hzero)
    omega

/-- Settles O39. -/
theorem descriptorIsStoredOrRefused : Obligations.DescriptorIsStoredOrRefused := by
  intro s f c x cardType operate release check hflight hcommand hcensus hcurrent hlanes
  refine ⟨fun hsum => ?_, fun hsum hidle => ?_⟩
  · have hstep : exec (.descriptor c cardType operate release check) s = .next _ :=
      congrArg Host.Outcome.next (State.described_valid hflight hcommand hsum)
    rw [show s.freeLink.census = some x from hcensus, Option.map_some,
      State.arbitrate_placed (s := s.freeLink.setCard c _) rfl hlanes rfl] at hstep
    refine ⟨_, hstep, ⟨storedDescriptor cardType operate release, State.cardAt_setCard_self _ _ _, rfl, storedTime_toNat _,
      storedTime_toNat _⟩, State.otherCardsSame_setCard s.freeLink c _, rfl, ?_, rfl, rfl, ⟨rfl, rfl⟩, rfl, rfl, rfl,
      ⟨rfl, rfl, rfl, rfl, rfl⟩, rfl, rfl, rfl⟩
    rw [← hcurrent]
    rfl
  · let flagged : State := s.freeLink.setCard c { s.freeLink.cardAt c with checksumBad := true }
    have hstep : exec (.descriptor c cardType operate release check) s = .next (flagged.cardOffline c).censusNext.arbitrate :=
      congrArg Host.Outcome.next (State.described_invalid hflight hcommand hsum)
    rw [State.cardOffline_of_idle (s := flagged) hidle] at hstep
    let offline : State := (flagged.setCard c { flagged.cardAt c with state := .offline }).latch .cardOffline
    obtain ⟨honly, hmoved⟩ := State.censusNext_arbitrate (s := offline) hcensus rfl hlanes
    obtain ⟨hsame, hports, hcards, hrun, hexam⟩ := honly.same
    have hflagged : flagged.cardAt c = { s.cardAt c with checksumBad := true } := State.cardAt_setCard_self _ _ _
    have hcard : offline.cardAt c = { s.cardAt c with state := .offline, checksumBad := true } := by
      refine (State.cardAt_setCard_self flagged c _).trans ?_
      rw [hflagged]
    have hothers : OtherCardsSame s offline c := fun d hd =>
      (State.otherCardsSame_setCard flagged c _ d hd).trans (State.otherCardsSame_setCard s.freeLink c _ d hd)
    exact ⟨_, hstep, State.cardAt_of_cards hcards hcard, hothers.of_cards hcards, hmoved, hexam, honly.sameTables, hsame, hports,
      hrun, honly.sameSettings, honly.samePort⟩

/-- Settles O42. -/
theorem censusTimeoutMarksAbsent : Obligations.CensusTimeoutMarksAbsent := by
  intro s f c x hflight hcommand hcensus hlanes
  let absent : State := s.freeLink.setCard c { s.cardAt c with state := .absent }
  have hstep : exec .censusTimeout s = .next absent.censusNext.arbitrate := exec_censusTimeout hflight hcommand
  obtain ⟨honly, hmoved⟩ := State.censusNext_arbitrate (s := absent) hcensus rfl hlanes
  obtain ⟨hsame, hports, hcards, hrun, hexam⟩ := honly.same
  exact ⟨_, hstep, State.cardAt_of_cards hcards (State.cardAt_setCard_self _ _ _),
    (State.otherCardsSame_setCard s.freeLink c _).of_cards hcards, hmoved, hexam, honly.sameTables, hsame, hports, hrun,
    honly.sameSettings, honly.samePort⟩

/-! ## CARD READ and CARD CENSUS (R164, R167) -/

theorem cardBody_at (c : CardNo) (e : CardEntry) (T : Nat) : CardAt (cardBody c e T) c e T := by
  have hcard : (byteOf c.val).toNat = c.val := byteOf_toNat (by omega)
  have hstate : (byteOf e.state.code).toNat = e.state.code := byteOf_toNat (by cases e.state <;> decide)
  unfold CardAt word16At
  cases hdescriptor : e.descriptor with
  | none =>
    simp only [cardBody, hdescriptor, List.cons_append, List.nil_append, byteAt_succ, byteAt_zero, hcard, hstate, true_and]
    refine ⟨by simp, hasBits_byteOfBits (by simp), fun i hi hi' => ?_⟩
    obtain ⟨j, rfl⟩ : ∃ j, i = j + 1 + 1 + 1 := ⟨i - 3, by omega⟩
    simp only [byteAt_succ]
    have hj : j < 7 := by omega
    interval_cases j <;> rfl
  | some d =>
    simp only [cardBody, hdescriptor, bytesOf16, bytes16, List.cons_append, List.nil_append, byteAt_succ, byteAt_zero,
      append_bytes16, hcard, hstate, true_and]
    exact ⟨by simp, hasBits_byteOfBits (by simp), trivial⟩

theorem namedCard_eq_some {b : Byte} {c : CardNo} : namedCard b = some c ↔ b.toNat = c.val := by
  unfold namedCard
  split_ifs with h
  · simp [Fin.ext_iff]
  · simp only [false_iff]
    omega

theorem namedCard_eq_none {b : Byte} (h : 16 ≤ b.toNat) : namedCard b = none := dif_neg (by omega)

theorem coveredCards_of_card {b : Byte} {c : CardNo} (h : b.toNat = c.val) : coveredCards b = some (c, []) := by
  have hall : b ≠ 0xFF := by rintro rfl; have : (255 : Nat) = c.val := h; omega
  unfold coveredCards
  rw [if_neg hall, namedCard_eq_some.mpr h]
  rfl

theorem coveredCards_all : coveredCards 0xFF = some (0, [1, 2, 3, 4, 5, 6, 7, 8, 9, 10, 11, 12, 13, 14, 15]) := rfl

theorem coveredCards_none {b : Byte} (h : 16 ≤ b.toNat) (hall : b ≠ 0xFF) : coveredCards b = none := by
  unfold coveredCards
  rw [if_neg hall, namedCard_eq_none h]
  rfl

section
variable {body : List Byte} {s : State}

theorem cardReadOwner_named {c : CardNo} (hlength : body.length = 1) (hc : (byteAt body 0).toNat = c.val) :
    cardReadOwner body s = (s.setCard c (s.cardAt c).clearFlags, .reply .ok (cardBody c (s.cardAt c) s.tick)) := by
  unfold cardReadOwner
  rw [if_neg (not_not.mpr hlength), namedCard_eq_some.mpr hc]

theorem cardReadOwner_badRequest (hlength : body.length = 1) (hc : 16 ≤ (byteAt body 0).toNat) :
    cardReadOwner body s = (s, refuse .badRequest) := by
  unfold cardReadOwner
  rw [if_neg (not_not.mpr hlength), namedCard_eq_none hc]

theorem cardCensusOwner_starts {first : CardNo} {others : List CardNo} (hlength : body.length = 1)
    (hactive : s.run.state.active = false) (hcensus : s.census = none)
    (hcovered : coveredCards (byteAt body 0) = some (first, others)) :
    cardCensusOwner body s = (s.startCensus first others, .reply .started [byteAt body 0]) := by
  unfold cardCensusOwner State.busyChecks lengthCheck
  dsimp only
  rw [hcovered, hactive, hcensus]
  simp [firstFailing, hlength]

theorem cardCensusOwner_badRequest (hlength : body.length = 1) (hcovered : coveredCards (byteAt body 0) = none) :
    cardCensusOwner body s = (s, refuse .badRequest) := by
  unfold cardCensusOwner State.busyChecks lengthCheck
  dsimp only
  rw [hcovered]
  simp [firstFailing, hlength]

theorem cardCensusOwner_busy {x : CardNo × List CardNo} (hlength : body.length = 1)
    (hcovered : coveredCards (byteAt body 0) = some x)
    (hbusy : s.run.state.active = true ∨ s.census ≠ none) : cardCensusOwner body s = (s, refuse .busy) := by
  have hcensus : s.run.state.active = false → s.census.isSome = true := fun hactive =>
    Option.isSome_iff_ne_none.mpr (hbusy.resolve_left (by simp [hactive]))
  unfold cardCensusOwner State.busyChecks lengthCheck
  dsimp only
  rw [hcovered]
  cases hactive : s.run.state.active with
  | true => simp [firstFailing, hlength]
  | false => simp [firstFailing, hlength, hcensus hactive]

end

theorem State.cardAt_censusEntered (s : State) (cs : List CardNo) (c : CardNo) :
    (s.censusEntered cs).cardAt c =
      if c ∈ cs then { s.cardAt c with state := .census, descriptor := none } else s.cardAt c := by
  induction cs generalizing s with
  | nil => rfl
  | cons x xs ih =>
    have hstep : (s.censusEntered (x :: xs)).cardAt c =
        ((s.setCard x { s.cardAt x with state := .census, descriptor := none }).censusEntered xs).cardAt c := rfl
    rw [hstep, ih, State.cardAt_setCard]
    by_cases hx : c = x
    · subst hx
      simp
    · simp [hx]

/-- A census of some cards on a free link that no lane waits for sends its first IDENTIFY at once. -/
theorem State.startCensus_sends {s : State} (first : CardNo) (others : List CardNo) (hfree : s.link.inFlight = none)
    (hlanes : s.noLaneWaits = true) :
    s.startCensus first others =
      { s with
        cards := (s.censusEntered (first :: others)).cards
        census := some { current := first, remaining := others, stage := .identify, request := .inFlight }
        link :=
          { lastGranted := 4
            inFlight := some { requester := 4, command := .identify first, resent := false
                               timer := s.settings.censusTimeout.toNat }
            sentCommand := some (.identify first) } } := by
  rw [State.startCensus_eq, State.censusEntered_frame]
  exact State.arbitrate_placed (s := { s with cards := (s.censusEntered (first :: others)).cards }) hfree hlanes rfl

/-- Settles O43. -/
theorem cardRequestsReadAndIdentify : Obligations.CardRequestsReadAndIdentify := by
  refine ⟨cardBody_at, fun s f htakes hlength => ⟨fun c hc => ?_, fun hc => ?_,
      fun first others hactive hcensus hfree hlanes hcards => ?_,
    fun hc hall => ?_, fun hcovered hbusy => ?_⟩⟩
  · exact exec_of_reply rfl htakes (by omega) (cardReadOwner_named (s := s.taken f) hlength hc)
  · exact exec_of_reply rfl htakes (by omega) (cardReadOwner_badRequest (s := s.taken f) hlength hc)
  · have hcovered : coveredCards (byteAt f.body 0) = some (first, others) := by
      rcases hcards with ⟨hfirst, rfl⟩ | ⟨hall, rfl, rfl⟩
      · exact coveredCards_of_card hfirst
      · rw [hall, coveredCards_all]
    have howner := cardCensusOwner_starts (s := s.taken f) hlength hactive hcensus hcovered
    rw [State.startCensus_sends (s := s.taken f) first others hfree hlanes] at howner
    refine ⟨_, exec_of_reply rfl htakes (by omega) howner, fun c hc => ?_, fun c hfirst hother => ?_, rfl, rfl,
      ⟨rfl, rfl⟩, rfl, rfl,
      rfl, rfl, rfl, ⟨rfl, rfl, rfl, rfl, rfl⟩, rfl⟩
    · exact ((s.taken f).cardAt_censusEntered (first :: others) c).trans (if_pos (List.mem_cons.mpr hc))
    · exact ((s.taken f).cardAt_censusEntered (first :: others) c).trans
        (if_neg fun hmem => (List.mem_cons.mp hmem).elim hfirst hother)
  · exact exec_of_reply rfl htakes (by omega) (cardCensusOwner_badRequest (s := s.taken f) hlength (coveredCards_none hc hall))
  · obtain ⟨x, hx⟩ : ∃ x, coveredCards (byteAt f.body 0) = some x := by
      rcases hcovered with hcard | hall
      · exact ⟨_, coveredCards_of_card (c := ⟨_, hcard⟩) rfl⟩
      · exact ⟨_, by rw [hall]; exact coveredCards_all⟩
    exact exec_of_reply rfl htakes (by omega) (cardCensusOwner_busy (s := s.taken f) hlength hx hbusy)

/-! ## Answers that cannot be used (R117, R163) -/

section
variable {s : State} {c : CardNo}

theorem LinkCommand.isIdentify_iff (k : LinkCommand) : k.isIdentify = true ↔ ∃ d, k = .identify d := by
  cases k <;> simp [LinkCommand.isIdentify]

theorem State.acknowledged_discarded (h : ∀ f, s.link.inFlight = some f → f.command.isIdentify = true ∨ f.command.card ≠ c) :
    s.acknowledged c = s := by
  unfold State.acknowledged
  cases hflight : s.link.inFlight with
  | none => rfl
  | some f =>
    refine if_neg ?_
    rintro ⟨hidentify, hcard⟩
    rcases h f hflight with h | h
    · rw [hidentify] at h; cases h
    · exact h hcard

theorem State.described_discarded (cardType operate release check : Byte)
    (h : ∀ f, s.link.inFlight = some f → f.command.isIdentify = false ∨ f.command.card ≠ c) :
    s.described c cardType operate release check = s := by
  unfold State.described
  cases hflight : s.link.inFlight with
  | none => rfl
  | some f =>
    refine if_neg ?_
    rintro ⟨hidentify, hcard⟩
    rcases h f hflight with h | h
    · rw [hidentify] at h; cases h
    · exact h hcard

theorem State.parityAnswered_discarded (h : ∀ f, s.link.inFlight = some f → f.command.card ≠ c) : s.parityAnswered c = s := by
  unfold State.parityAnswered
  cases hflight : s.link.inFlight with
  | none => rfl
  | some f => exact if_neg (h f hflight)

end

/-- Settles O34. -/
theorem unusableAnswersAreDiscarded : Obligations.UnusableAnswersAreDiscarded := by
  refine ⟨LinkCommand.isIdentify_iff, fun c x l bus => ⟨rfl, rfl, rfl, rfl⟩, fun s => ⟨fun l number count overrange fault h => ?_,
    fun l => rfl, rfl, fun c h => ?_, fun c cardType operate release check h => ?_, fun c h => ?_⟩⟩
  · refine if_neg ?_
    rintro ⟨hphase, hnumber⟩
    rcases h with h | h
    · exact h hphase
    · exact h hnumber
  · have hsame := State.acknowledged_discarded h
    exact ⟨congrArg _ hsame, congrArg _ hsame⟩
  · have hsame := State.described_discarded cardType operate release check h
    exact ⟨congrArg _ hsame, congrArg _ hsame⟩
  · have hsame := State.parityAnswered_discarded h
    exact ⟨congrArg _ hsame, congrArg _ hsame⟩

end Sys2Proof.Machine
end

section
/-! CERTIFICATE. The end of a release, an overrange that may be retried, and the ends of a step by a verdict or a timeout. -/

namespace Sys2Proof.Machine

/-! ## The reference counts of a resolution (R25) -/

section
variable {s : State} {k : Slot} {r : StepRecord} {p : Bool}

theorem State.resolve_retiring {d : Option StepEdit} (hr : s.recordAt k = some r) (hstatus : r.status = .held p d true) :
    s.resolve k = s.freeSlot k r := by
  unfold State.resolve
  rw [hr]
  dsimp only
  rw [hstatus]
  rfl

theorem State.nails_resolve_unedited (hr : s.recordAt k = some r) (hstatus : r.status = .held p none false) :
    (s.resolve k).nails = s.nails := by
  unfold State.resolve
  rw [hr]
  dsimp only
  rw [hstatus]
  dsimp only
  rw [State.moveRefs_self]
  rfl

theorem State.nails_resolve_edited {e : StepEdit} (hr : s.recordAt k = some r) (hstatus : r.status = .held p (some e) false) :
    (s.resolve k).nails = (s.moveRefs r.program.nails (e.nails.getD r.program.nails)).nails := by
  unfold State.resolve
  rw [hr]
  dsimp only
  rw [hstatus]
  rfl

end

theorem resolvedSlot_congr {s t : State} (h : ∀ n, (t.nailAt n).state = (s.nailAt n).state) (mark : Bool) (r : StepRecord)
    (p : Bool) (d : Option StepEdit) (q : Bool) : resolvedSlot t mark r p d q = resolvedSlot s mark r p d q := by
  unfold resolvedSlot
  simp only [State.anyRetired_congr h]

/-! ## The end of a release (R123) -/

section
variable {s : State} {l : LaneNo} {k : Slot}

theorem State.releasedTables_of_slot (hslot : (s.laneAt l).heldSlot = some k) :
    s.releasedTables l = (s.freeBindings l).resolve k := by
  unfold State.releasedTables
  rw [hslot]

theorem State.releasedTables_frame (s : State) (l : LaneNo) : TablesChanged s (s.releasedTables l) := by
  have hfreed : TablesChanged s (s.freeBindings l) := ⟨s.steps, _, rfl⟩
  unfold State.releasedTables
  split
  · exact hfreed
  · exact hfreed.trans (.resolve _ _)

theorem State.exam_endRelease (s : State) (l : LaneNo) : (s.endRelease l).exam = examAfter true s.run.state s.exam := by
  rw [State.endRelease_eq, State.exam_testRunEnd, State.reportOpportunity_eq]
  rw [show ((s.releasedTables l).setLane l Lane.blank).run = (s.releasedTables l).run from rfl,
    show ((s.releasedTables l).setLane l Lane.blank).exam = (s.releasedTables l).exam from rfl,
    (s.releasedTables_frame l).run, (s.releasedTables_frame l).exam]

theorem State.endRelease_tested (s : State) (l : LaneNo) : RunEndTested s.run s.latches (s.endRelease l) := by
  have hframe := s.releasedTables_frame l
  rw [State.endRelease_eq]
  refine RunEndTested.of_testRunEnd ?_ ?_
  · rw [State.reportOpportunity_run, State.setLane_run, hframe.run]
  · rw [State.reportOpportunity_latches, State.setLane_latches, hframe.latches]

theorem State.nailAt_freed_state (hcanon : s.canonical = true) (l : LaneNo) (n : NailNo) :
    ((s.freeBindings l).nailAt n).state = (s.nailAt n).state := by
  rw [State.nailAt_freeBindings hcanon]
  rfl

/-- All of a nail entry but its bindings and its count outlasts the end of a step. -/
theorem State.nailAt_endRelease_rest (hcanon : s.canonical = true) (l : LaneNo) (n : NailNo) :
    ((s.endRelease l).nailAt n).state = (s.nailAt n).state ∧ ((s.endRelease l).nailAt n).common = (s.nailAt n).common
      ∧ ((s.endRelease l).nailAt n).contactFails = (s.nailAt n).contactFails := by
  rw [State.nailAt_congr (s.endRelease_nails l), State.releasedTables]
  split
  · rw [State.nailAt_freeBindings hcanon]
    exact ⟨rfl, rfl, rfl⟩
  · obtain ⟨c, hc⟩ := (s.freeBindings l).nailAt_resolve_rest _ n
    rw [hc, State.nailAt_freeBindings hcanon]
    exact ⟨rfl, rfl, rfl⟩

theorem State.slotAt_endRelease {r : StepRecord} {p : Bool} {d : Option StepEdit} {q : Bool} (hcanon : s.canonical = true)
    (hslot : (s.laneAt l).heldSlot = some k) (hr : s.recordAt k = some r) (hstatus : r.status = .held p d q) (j : Slot) :
    (s.endRelease l).slotAt j = if j = k then resolvedSlot s (s.slotAt k).runMark r p d q else s.slotAt j := by
  rw [State.slotAt_congr (s.endRelease_steps l), State.releasedTables_of_slot hslot,
    State.slotAt_resolve (s := s.freeBindings l) hr hstatus, resolvedSlot_congr (State.nailAt_freed_state hcanon l)]
  rfl

theorem State.refCount_endRelease (hslot : (s.laneAt l).heldSlot = some k) {t : State}
    (ht : ((s.freeBindings l).resolve k).nails = t.nails) (n : NailNo) :
    ((s.endRelease l).nailAt n).refCount = (t.nailAt n).refCount := by
  rw [State.nailAt_congr (s.endRelease_nails l), State.releasedTables_of_slot hslot, State.nailAt_congr ht]

theorem State.refCount_freeBindings (hcanon : s.canonical = true) (l : LaneNo) (n : NailNo) :
    ((s.freeBindings l).nailAt n).refCount = (s.nailAt n).refCount := by
  rw [State.nailAt_freeBindings hcanon]
  rfl

end

/-- Settles O33. -/
theorem releaseEndResolvesStep : Obligations.ReleaseEndResolvesStep := by
  intro s l m k r p d q hcanon htimer hslot hr hstatus
  have hstep : exec (.releaseWaitExpiry l) s = .next (s.endRelease l) := by
    show execReleaseWaitExpiry l s = _
    unfold execReleaseWaitExpiry
    rw [htimer]
  have hframe := LaneFrame.endRelease l s
  have hcount := State.refCount_freeBindings hcanon l
  refine ⟨_, hstep, fun n => ⟨State.bindings_endRelease hcanon l n, State.nailAt_endRelease_rest hcanon l n⟩, ?_, fun j hj => ?_,
    fun hnodup hq n => ?_, fun hq hd n => ?_, fun e nails hq hd hnails hnodup hnodup' n => ?_, s.laneAt_endRelease l,
        hframe.lanes,
    s.exam_endRelease l, s.endRelease_tested l, s.ports_endRelease l, hframe.cards, hframe.link, hframe.census, hframe.settings,
    hframe.port⟩
  · rw [State.slotAt_endRelease hcanon hslot hr hstatus, if_pos rfl]
  · rw [State.slotAt_endRelease hcanon hslot hr hstatus, if_neg hj]
  · subst hq
    rw [State.refCount_endRelease hslot (congrArg State.nails (State.resolve_retiring (s := s.freeBindings l) hr hstatus)),
      State.nailAt_freeSlot _ _ hnodup]
    exact congrArg (· - _) (hcount n)
  · subst hq
    rcases hd with rfl | ⟨e, rfl, he⟩
    · rw [State.refCount_endRelease hslot (State.nails_resolve_unedited (s := s.freeBindings l) hr hstatus), hcount]
    · have hnails := State.nails_resolve_edited (s := s.freeBindings l) hr hstatus
      rw [he, Option.getD_none, State.moveRefs_self] at hnails
      rw [State.refCount_endRelease hslot hnails, hcount]
  · subst hq hd
    have hmoved := State.nails_resolve_edited (s := s.freeBindings l) hr hstatus
    rw [hnails, Option.getD_some] at hmoved
    rw [State.refCount_endRelease hslot hmoved, State.nailAt_moveRefs _ _ _ hnodup hnodup', hcount]

/-! ## A settle taken up (R59, R60, R115) -/

theorem State.setLane_setLane (s : State) (l : LaneNo) (v w : Lane) : (s.setLane l v).setLane l w = s.setLane l w := by
  unfold State.setLane
  simp only [Vector.set_set]

section
variable {s : State} {l : LaneNo} {k : Slot} {r : StepRecord} {settle : Nat × Bool}

/-- The settle-clamped flag written into the record a lane holds. -/
def State.flagged (s : State) (k : Slot) (r : StepRecord) (flag : Bool) : State :=
  s.setRecord k { r with stats := { r.stats with settleClamped := flag } }

theorem State.writeClamped_of_heldBy (h : s.heldBy l = some (k, r)) (flag : Bool) :
    s.writeClamped l flag = s.flagged k r flag := by
  unfold State.writeClamped
  rw [h]
  rfl

theorem State.startSettle_runs (h : s.heldBy l = some (k, r)) (aperture : BitVec 16) (hsettle : settle.1 ≠ 0) :
    s.startSettle l aperture settle =
      (s.flagged k r settle.2).setLane l { s.laneAt l with phase := .settling, timer := some (.settle settle.1) } := by
  unfold State.startSettle
  dsimp only
  rw [State.writeClamped_of_heldBy h, if_neg hsettle]
  rfl

/-- A START with its number raised, and the converter timeout. -/
def State.started (s : State) (l : LaneNo) (aperture : BitVec 16) : State :=
  (s.setPort l
    { startNumber := (s.portAt l).startNumber + 1, outstanding := some ((s.portAt l).startNumber + 1)
      sentStart := some
        { number := (s.portAt l).startNumber + 1, range := (s.laneAt l).rangeInUse, aperture := aperture } }).setLane l
    { s.laneAt l with
      phase := .measuring, timer := some (.converterTimeout (aperture.toNat + s.settings.converterMargin.toNat)) }

theorem State.startSettle_expires (h : s.heldBy l = some (k, r)) (aperture : BitVec 16) (hsettle : settle.1 = 0) :
    s.startSettle l aperture settle = (s.flagged k r settle.2).started l aperture := by
  unfold State.startSettle State.sendStart
  dsimp only
  rw [State.writeClamped_of_heldBy h, if_pos hsettle, State.laneAt_setLane_self]
  exact State.setLane_setLane ((s.flagged k r settle.2).setPort l _) l _ _

end

/-! ## A RESULT taken (R117 to R119) -/

theorem exec_result {s : State} {l : LaneNo} {number : Byte} (hphase : (s.laneAt l).phase = .measuring)
    (hnumber : (s.portAt l).outstanding = some number) (count : BitVec 24) (overrange fault : Bool) :
    exec (.result l number count overrange fault) s = .next (s.takeResult l count overrange fault) := if_pos ⟨hphase, hnumber⟩

theorem State.takeResult_retry {s : State} {l : LaneNo} {k : Slot} {r : StepRecord} {count : BitVec 24} {overrange fault : Bool}
    (hheld : s.heldBy l = some (k, r))
    (hjudge : judge s.run.summary.mode s.run.summary.weight.val r
      { count := count, overrange := overrange, fault := fault, rangeUsed := (s.laneAt l).rangeInUse,
        retriesUsed := (s.laneAt l).retriesUsed } = .retry) :
    s.takeResult l count overrange fault = (s.clearOutstanding l).retryLane l r := by
  unfold State.takeResult
  rw [hheld]
  dsimp only
  rw [hjudge]

theorem State.takeResult_verdict {s : State} {l : LaneNo} {k : Slot} {r : StepRecord} {count : BitVec 24} {overrange fault : Bool}
    {w : VerdictWrite} (hheld : s.heldBy l = some (k, r))
    (hjudge : judge s.run.summary.mode s.run.summary.weight.val r
      { count := count, overrange := overrange, fault := fault, rangeUsed := (s.laneAt l).rangeInUse,
        retriesUsed := (s.laneAt l).retriesUsed } = .verdict w) :
    s.takeResult l count overrange fault = ((s.clearOutstanding l).enterReleasing l w).arbitrate := by
  unfold State.takeResult
  rw [hheld]
  dsimp only
  rw [hjudge]

/-- The state of a retry before its settle is taken up. -/
def State.retried (s : State) (l : LaneNo) : State :=
  ((s.clearOutstanding l).setLane l
    { s.laneAt l with
      rangeInUse := (s.laneAt l).rangeInUse + 1, retriesUsed := (s.laneAt l).retriesUsed + 1, timer := none }).setSummary
    { s.run.summary with retries := s.run.summary.retries + 1 }

theorem State.retryLane_eq (s : State) (l : LaneNo) (r : StepRecord) :
    (s.clearOutstanding l).retryLane l r =
      (s.retried l).startSettle l r.program.timing.aperture
        (retrySettle r.program.timing ((s.laneAt l).rangeInUse + 1) s.tick) := rfl

section
variable {s : State} {l : LaneNo} {k : Slot} {r : StepRecord}

theorem State.laneAt_retried (s : State) (l : LaneNo) : (s.retried l).laneAt l =
    { s.laneAt l with
      rangeInUse := (s.laneAt l).rangeInUse + 1, retriesUsed := (s.laneAt l).retriesUsed + 1, timer := none } := by
  unfold State.retried
  rw [State.laneAt_setSummary, State.laneAt_setLane_self]

theorem State.heldBy_retried (h : s.heldBy l = some (k, r)) : (s.retried l).heldBy l = some (k, r) := by
  obtain ⟨hslot, hr⟩ := (State.heldBy_eq_some s l k r).mp h
  exact (State.heldBy_eq_some _ l k r).mpr ⟨by rw [State.laneAt_retried]; exact hslot, hr⟩

theorem State.laneAt_retried_other {m : LaneNo} (h : m ≠ l) : (s.retried l).laneAt m = s.laneAt m := by
  unfold State.retried
  rw [State.laneAt_setSummary, State.laneAt_setLane, if_neg h, State.laneAt_clearOutstanding]

theorem State.portAt_retried (s : State) (l : LaneNo) : (s.retried l).portAt l = { s.portAt l with outstanding := none } :=
  State.portAt_setPort_self s l _

theorem State.portAt_retried_other {m : LaneNo} (h : m ≠ l) : (s.retried l).portAt m = s.portAt m :=
  (State.portAt_setPort s l _ m).trans (if_neg h)

end

/-- Settles O32. -/
theorem overrangeRetriesAtCoarserRange : Obligations.OverrangeRetriesAtCoarserRange := by
  intro s l number count k r hphase hnumber hheld hkind hretries hrange
  have hjudge := (judge_of_overrange_measure (mode := s.run.summary.mode) (weight := s.run.summary.weight.val)
    (x := { count := count, overrange := true, fault := false, rangeUsed := (s.laneAt l).rangeInUse,
            retriesUsed := (s.laneAt l).retriesUsed }) rfl rfl hkind).trans (if_pos ⟨hretries, hrange⟩)
  have hheld' := State.heldBy_retried hheld
  have hlane := s.laneAt_retried l
  have hslots (j : Slot) (hj : j ≠ k) (flag : Bool) : ((s.retried l).flagged k r flag).slotAt j = s.slotAt j := by
    unfold State.flagged
    rw [State.slotAt_setRecord, if_neg hj]
    rfl
  have hslot (flag : Bool) : ((s.retried l).flagged k r flag).slotAt k =
      { s.slotAt k with record := some { r with stats := { r.stats with settleClamped := flag } } } :=
    State.slotAt_setRecord_self _ _ _
  have hothers (m : LaneNo) (hm : m ≠ l) (flag : Bool) : ((s.retried l).flagged k r flag).laneAt m = s.laneAt m :=
    State.laneAt_retried_other hm
  dsimp only
  generalize hsettle : retrySettle r.program.timing ((s.laneAt l).rangeInUse + 1) s.tick = settle
  have hstep : exec (.result l number count true false) s =
      .next ((s.retried l).startSettle l r.program.timing.aperture settle) := by
    rw [exec_result hphase hnumber, State.takeResult_retry hheld hjudge, State.retryLane_eq, hsettle]
  by_cases hzero : settle.1 = 0
  · rw [State.startSettle_expires hheld' _ hzero] at hstep
    refine ⟨_, hstep, hslot _, fun j hj => hslots j hj _, rfl, rfl, ?_, fun hne => absurd hzero hne, fun _ => ?_, fun n hn => ?_,
      fun m hm => ?_, rfl, rfl, rfl, rfl, rfl, ⟨rfl, rfl, rfl, rfl, rfl⟩, rfl, rfl, rfl⟩
    · rw [if_pos hzero, if_pos hzero]
      refine (State.laneAt_setLane_self _ _ _).trans ?_
      rw [show ((s.retried l).flagged k r settle.2).laneAt l = (s.retried l).laneAt l from rfl, hlane]
      rfl
    · refine (State.portAt_setPort_self _ _ _).trans ?_
      rw [show ((s.retried l).flagged k r settle.2).laneAt l = (s.retried l).laneAt l from rfl, hlane,
        show ((s.retried l).flagged k r settle.2).portAt l = (s.retried l).portAt l from rfl, State.portAt_retried]
    · exact ((State.portAt_setPort _ _ _ _).trans (if_neg hn)).trans (State.portAt_retried_other hn)
    · exact ((State.laneAt_setLane _ _ _ _).trans (if_neg hm)).trans (hothers m hm settle.2)
  · rw [State.startSettle_runs hheld' _ hzero, hlane] at hstep
    refine ⟨_, hstep, hslot _, fun j hj => hslots j hj _, rfl, rfl, ?_, fun _ => ⟨s.portAt_retried l, fun m hm =>
      State.portAt_retried_other hm⟩, fun h => absurd h hzero, fun n hn => State.portAt_retried_other hn,
      fun m hm => ?_, rfl, rfl, rfl, rfl, rfl, ⟨rfl, rfl, rfl, rfl, rfl⟩, rfl, rfl, rfl⟩
    · rw [if_neg hzero, if_neg hzero]
      exact State.laneAt_setLane_self _ _ _
    · exact ((State.laneAt_setLane _ _ _ _).trans (if_neg hm)).trans (hothers m hm settle.2)

end Sys2Proof.Machine
end

section
/-! CERTIFICATE. A step that ends with a verdict: its first OPEN requested, and the grants that follow. -/

namespace Sys2Proof.Machine

/-! ## The entry to RELEASING (R121) -/

section
variable {s t : State} {l : LaneNo} {k : Slot} {r : StepRecord}

/-- The release set named for a lane, by its record (R121). -/
theorem State.namedReleaseSet_eq (h : s.heldBy l = some (k, r)) :
    s.namedReleaseSet l = allCards.filter (fun c => decide ((s.cardAt c).state = .online)
      && (r.program.nails.toList.take (s.laneAt l).closedCount).any (fun n => decide (cardOf n = c))) := by
  unfold State.namedReleaseSet State.closedNails NailList.toList
  rw [State.heldNails_of_heldBy h, List.map_take]

/-- A grant has changed link and census, and the link request of lanes that waited. -/
structure Granted (u t : State) : Prop where
  rest : ∃ lanes link census, t = { u with lanes := lanes, link := link, census := census }
  lanes : ∀ m, t.laneAt m = u.laneAt m
    ∨ ((u.laneAt m).linkRequest = .waiting ∧ t.laneAt m = { u.laneAt m with linkRequest := .inFlight })
  census : u.waits 4 = false → t.census = u.census
  busy : u.link.inFlight ≠ none → t.link = u.link
  command : ∀ g m, u.link.inFlight = none → t.link.inFlight = some g → g.requester = rankOfLane m →
    u.laneCommand m = some g.command
  served : u.link.inFlight = none → (∃ r, u.waits r = true) → t.link.inFlight ≠ none

theorem Granted.request {u t : State} (h : Granted u t) {m : LaneNo} (hm : (u.laneAt m).linkRequest = .waiting) :
    ∃ request, (request = .waiting ∨ request = .inFlight) ∧ t.laneAt m = { u.laneAt m with linkRequest := request } := by
  rcases h.lanes m with heq | ⟨-, heq⟩
  · exact ⟨.waiting, .inl rfl, by rw [heq, ← hm]⟩
  · exact ⟨.inFlight, .inr rfl, heq⟩

theorem Granted.other {u t : State} (h : Granted u t) {m : LaneNo} (hm : (u.laneAt m).linkRequest ≠ .waiting) :
    t.laneAt m = u.laneAt m := (h.lanes m).resolve_right fun hgrant => hm hgrant.1

theorem Granted.others {s u t : State} (h : Granted u t) (hu : OtherLanesSame s u l) : OtherLanesSameButGrant s t l :=
  fun m hm => hu m hm ▸ h.lanes m

theorem Granted.refl {u : State} (h : u.link.inFlight = none → ∀ r, u.waits r = false) : Granted u u :=
  ⟨⟨_, _, _, rfl⟩, fun _ => .inl rfl, fun _ => rfl, fun _ => rfl, fun _ _ hfree hg => (nomatch hfree.symm.trans hg),
    fun hfree ⟨r, hr⟩ => (nomatch (h hfree r).symm.trans hr)⟩

/-- A grant sends the command of the lane that is served. -/
theorem Granted.sends {u : State} {m : LaneNo} {c : LinkCommand} (hfree : u.link.inFlight = none)
    (hwaits : (u.laneAt m).linkRequest = .waiting) (hc : u.laneCommand m = some c) :
    Granted u ((u.sendCommand (rankOfLane m) c).setLane m { u.laneAt m with linkRequest := .inFlight }) where
  rest := ⟨_, _, _, rfl⟩
  lanes n := by
    by_cases hn : n = m
    · subst hn
      exact .inr ⟨hwaits, State.laneAt_setLane_self _ _ _⟩
    · exact .inl ((State.laneAt_setLane _ _ _ _).trans (if_neg hn))
  census _ := rfl
  busy h := absurd hfree h
  command g n _ hg hn := by
    have hg : some _ = some g := hg
    cases hg
    have hn : rankOfLane m = rankOfLane n := hn
    have hmn : m = n := Fin.ext (by simpa [rankOfLane] using hn)
    exact hmn ▸ hc
  served _ _ := nofun

theorem Granted.census_sends {u : State} {x : Census} (hfree : u.link.inFlight = none) (hwaits : u.waits 4 = true) :
    Granted u { (u.sendCommand 4 x.command) with census := some { x with request := .inFlight } } where
  rest := ⟨_, _, _, rfl⟩
  lanes _ := .inl rfl
  census h := by rw [h] at hwaits; cases hwaits
  busy h := absurd hfree h
  command g n _ hg hn := by
    have hg : some _ = some g := hg
    cases hg
    have hrank : (4 : Nat) = n.val := congrArg Fin.val hn
    omega
  served _ _ := nofun

/-- When no lane waits in vain, the arbiter grants at most one request. -/
theorem State.arbitrate_granted {u : State} (h : ∀ m, ¬ u.doomed m) : Granted u u.arbitrate := by
  unfold State.arbitrate State.grantFrom
  split
  · rename_i hbusy
    exact .refl fun hfree => by rw [hfree] at hbusy; cases hbusy
  rename_i hfree
  have hfree : u.link.inFlight = none := by simpa using hfree
  split
  · rename_i hnone
    exact .refl fun _ => (State.nextWaiting_eq_none u _).mp hnone
  rename_i r hr
  obtain ⟨hwaits, -⟩ := State.nextWaiting_eq_some hr
  split
  · rename_i hrank
    rw [(laneOfRank_eq_none r).mp hrank] at hwaits ⊢
    split
    · rename_i hcensus
      have hno : u.waits 4 = false := by simp [State.waits, hcensus, laneOfRank]
      rw [hno] at hwaits; cases hwaits
    · exact .census_sends hfree hwaits
  · rename_i m hrank
    rw [(laneOfRank_eq_some r m).mp hrank] at hwaits ⊢
    rw [State.waits_lane, decide_eq_true_eq] at hwaits
    obtain ⟨c, hc, honline⟩ := not_not.mp fun hoffline => h m ⟨hwaits, hoffline⟩
    rw [hc]
    dsimp only
    rw [if_pos honline]
    exact .sends hfree hwaits hc

/-- A step whose first OPEN is requested has ended, whatever the arbiter grants then. -/
theorem StepEnded.of_requested {p : Nat} {bus : Role} {nail : NailNo} {w : VerdictWrite} (hheld : s.heldBy l = some (k, r))
    (hcount : (s.laneAt l).closedCount = p + 1) (hentry : r.program.nails.entries[p]? = some (bus, nail))
    (honline : s.nailOnline nail = true) (hgrant : Granted (s.enterReleasing l w) t) (hcensus : t.census = s.census) :
    StepEnded s t l (p + 1) k r w := by
  have hframe := LaneFrame.enterReleasing l s w
  obtain ⟨hslot, hr⟩ := (State.heldBy_eq_some s l k r).mp hheld
  obtain ⟨hrun, hlatches, hexam⟩ := State.recordVerdict_told w hr
  have hentered := State.enterReleasing_requests w hheld hcount hentry honline
  have hlane : (s.enterReleasing l w).laneAt l =
      { s.laneAt l with
        phase := .releasing, releaseSet := s.namedReleaseSet l, openPosition := p + 1, pendingEnd := none,
        linkRequest := .waiting, timer := none } := by
    rw [hentered, State.laneAt_setLane_self]
  obtain ⟨request, hrequest, hgranted⟩ := hgrant.request (m := l) (by rw [hlane])
  have hothers := hgrant.others hframe.lanes
  obtain ⟨lanes, link, census, rfl⟩ := hgrant.rest
  rw [hentered] at hframe ⊢
  refine ⟨State.recordVerdict_recorded w hr, hrun, hlatches, hexam, ⟨request, hrequest, ?_⟩, hothers, hframe.cards, hcensus,
    hframe.settings, hframe.port⟩
  rw [hentered] at hgranted
  rw [hgranted, State.laneAt_setLane_self, State.namedReleaseSet_eq hheld, ← hcount]

/-- What prepares a lane for the end of its step beside its closed count is overwritten. -/
theorem StepEnded.of_prepared {b : State} {closed c : Nat} {w : VerdictWrite} {request : LinkRequest}
    (hb : ∃ ports link, b = ({ s with ports := ports, link := link } : State).setLane l
      { s.laneAt l with closedCount := c, linkRequest := request })
    (h : StepEnded b t l closed k r w) : StepEnded s t l closed k r w := by
  obtain ⟨ports, link, rfl⟩ := hb
  obtain ⟨hrecorded, hrun, hlatches, hexam, ⟨x, hx, hlane⟩, hothers, hcards, hcensus, hsettings, hport⟩ := h
  refine ⟨hrecorded, hrun, hlatches, hexam, ⟨x, hx, ?_⟩, fun m hm => ?_, hcards, hcensus, hsettings, hport⟩
  · rw [hlane, State.laneAt_setLane_self]
    rfl
  · have hsame := hothers m hm
    rw [State.laneAt_setLane, if_neg hm] at hsame
    exact hsame

/-- The outstanding START cleared is such a preparation. -/
theorem StepEnded.of_cleared {closed : Nat} {w : VerdictWrite} (h : StepEnded (s.clearOutstanding l) t l closed k r w) :
    StepEnded s t l closed k r w := by
  refine StepEnded.of_prepared (c := (s.laneAt l).closedCount) (request := (s.laneAt l).linkRequest)
    ⟨(s.clearOutstanding l).ports, s.link, ?_⟩ h
  exact (State.setLane_laneAt (s.clearOutstanding l) l).symm

theorem State.nobodyElse_enterReleasing {w : VerdictWrite} (hserved : s.linkServed)
    (hfree : (s.enterReleasing l w).link.inFlight = none) (x : Fin 5) (hx : x ≠ rankOfLane l) :
    (s.enterReleasing l w).waits x = false := by
  have hframe := LaneFrame.enterReleasing l s w
  rw [State.waits_of_other hframe.lanes hframe.census hx]
  exact hserved (hframe.link ▸ hfree) x

/-- The OPEN that a lane requests as its step ends. -/
theorem State.laneCommand_enterReleasing {p : Nat} {bus : Role} {nail : NailNo} {w : VerdictWrite}
    (hheld : s.heldBy l = some (k, r)) (hcount : (s.laneAt l).closedCount = p + 1)
    (hentry : r.program.nails.entries[p]? = some (bus, nail)) (honline : s.nailOnline nail = true) :
    (s.enterReleasing l w).laneCommand l = some (.openOne (cardOf nail) (crosspointOf nail) l bus) := by
  obtain ⟨hslot, hr⟩ := (State.heldBy_eq_some s l k r).mp hheld
  have hnails : (s.enterReleasing l w).heldNails l = r.program.nails.entries := by
    rw [State.enterReleasing_requests w hheld hcount hentry honline]
    refine State.heldNails_of_heldBy (r := { r with stats := r.stats.afterVerdict s.run.summary.mode s.run.number w })
      ((State.heldBy_eq_some _ l k _).mpr ⟨?_, ?_⟩)
    · rw [State.laneAt_setLane_self]
      exact hslot
    · rw [State.recordAt_setLane, State.recordAt_recordVerdict w hr, if_pos rfl]
  unfold State.laneCommand
  rw [hnails, State.enterReleasing_requests w hheld hcount hentry honline, State.laneAt_setLane_self]
  dsimp only
  rw [Nat.add_sub_cancel, hentry]
  rfl

end

/-! ## The end of a step at a MEASURING lane (R118, R120) -/

/-- The step of a lane whose outstanding START is cleared has ended, on a link that nobody else waits for while it is free. -/
theorem measuredStepEnds {s : State} {l : LaneNo} {k : Slot} {r : StepRecord} {w : VerdictWrite} {p : Nat} {bus : Role}
    {nail : NailNo} (hserved : s.linkServed) (hheld : s.heldBy l = some (k, r)) (hcount : (s.laneAt l).closedCount = p + 1)
    (hentry : r.program.nails.entries[p]? = some (bus, nail)) (honline : s.nailOnline nail = true) {t : State}
    (ht : t = ((s.clearOutstanding l).enterReleasing l w).arbitrate) :
    StepEnded s t l (p + 1) k r w ∧ OutstandingCleared s t l ∧ OtherLanesSame s t l
      ∧ (s.link.inFlight = none → t.link.inFlight = some
          { requester := rankOfLane l, command := .openOne (cardOf nail) (crosspointOf nail) l bus, resent := false
            timer := s.settings.ackTimeout.toNat })
      ∧ (s.link.inFlight ≠ none → t.link = s.link) := by
  have hframe := LaneFrame.enterReleasing l (s.clearOutstanding l) w
  have hcommand := State.laneCommand_enterReleasing (s := s.clearOutstanding l) (w := w) hheld hcount hentry honline
  have hwaiting : (((s.clearOutstanding l).enterReleasing l w).laneAt l).linkRequest = .waiting := by
    rw [State.enterReleasing_requests (s := s.clearOutstanding l) w hheld hcount hentry honline, State.laneAt_setLane_self]
  have hcard : (((s.clearOutstanding l).enterReleasing l w).cardAt (cardOf nail)).state = .online := by
    rw [State.cardAt_congr hframe.cards]
    show (s.cardAt (cardOf nail)).state = .online
    simpa [State.nailOnline] using honline
  have hnobody := State.nobodyElse_enterReleasing (s := s.clearOutstanding l) (l := l) (w := w) hserved
  have hgrant := State.arbitrate_one hwaiting hnobody hcommand hcard
  have hports := State.ports_enterReleasing (s.clearOutstanding l) l w
  rw [← ht] at hgrant
  have hgranted : Granted ((s.clearOutstanding l).enterReleasing l w) t := by
    by_cases hfree : ((s.clearOutstanding l).enterReleasing l w).link.inFlight = none
    · rw [hgrant, if_pos hfree, if_pos hfree]
      exact .sends hfree hwaiting hcommand
    · rw [hgrant, if_neg hfree, if_neg hfree, ← hwaiting]
      exact (State.setLane_laneAt _ _).symm ▸ .refl fun h => absurd h hfree
  have hcensus : t.census = s.census := by rw [hgrant]; exact hframe.census
  have hportAt (m : LaneNo) : t.portAt m = (s.clearOutstanding l).portAt m := State.portAt_congr (by rw [hgrant]; exact hports) m
  refine ⟨.of_cleared (.of_requested (s := s.clearOutstanding l) hheld hcount hentry honline hgranted hcensus),
    ⟨?_, fun m hm => ?_⟩, fun m hm => ?_, fun hfree => ?_, fun hbusy => ?_⟩
  · exact (hportAt l).trans (State.portAt_setPort_self _ _ _)
  · exact (hportAt m).trans ((State.portAt_setPort _ _ _ _).trans (if_neg hm))
  · rw [hgrant, State.laneAt_setLane, if_neg hm]
    exact hframe.lanes m hm
  · have hfree' : ((s.clearOutstanding l).enterReleasing l w).link.inFlight = none := by rw [hframe.link]; exact hfree
    obtain ⟨-, -, hset, -⟩ := hframe.settings
    rw [hgrant, if_pos hfree']
    unfold State.linkSending
    rw [hset]
    rfl
  · have hbusy' : ((s.clearOutstanding l).enterReleasing l w).link.inFlight ≠ none := by rw [hframe.link]; exact hbusy
    rw [hgrant, if_neg hbusy']
    exact hframe.link

theorem contactNail_noContact_fails (threshold : BitVec 4) (e : NailEntry) :
    (contactNail threshold e .noContact).contactFails.toNat = min 15 (e.contactFails.toNat + 1) :=
  raiseSaturating_toNat e.contactFails

theorem StepStats.afterVerdict_learnCount (st : StepStats) (mode : RunMode) (number : BitVec 16) (w : VerdictWrite) :
    (st.afterVerdict mode number w).learnCount.toNat =
      if w.verdict = .learned then min 255 (st.learnCount.toNat + 1) else st.learnCount.toNat := by
  unfold StepStats.afterVerdict
  dsimp only
  split_ifs
  · exact raiseSaturating_toNat _
  · rfl

/-- Settles O30. -/
theorem resultVerdictEndsStep : Obligations.ResultVerdictEndsStep := by
  refine ⟨fun st mode number w => ⟨rfl, rfl, rfl, rfl, rfl, rfl, rfl, st.afterVerdict_learnCount mode number w⟩,
      fun v range => rfl,
    fun e threshold => contactNail_noContact_fails threshold e,
    fun s l number count overrange fault k r w p bus nail hserved hphase hnumber hheld hjudge hcount hentry honline => ?_⟩
  exact ⟨_, (exec_result hphase hnumber _ _ _).trans (congrArg _ (State.takeResult_verdict hheld hjudge)),
    measuredStepEnds hserved hheld hcount hentry honline rfl⟩

/-- Settles O31. -/
theorem converterTimeoutFaultsStep : Obligations.ConverterTimeoutFaultsStep := by
  intro s l m k r p bus nail hserved htimer hheld hcount hentry honline
  have hstep : exec (.converterTimeout l) s = .next (((s.clearOutstanding l).enterReleasing l
      (VerdictWrite.bare .converterFault (some (s.laneAt l).rangeInUse))).arbitrate) := by
    show execConverterTimeout l s = _
    unfold execConverterTimeout
    rw [htimer]
  obtain ⟨hended, hcleared, hothers, -⟩ := measuredStepEnds hserved hheld hcount hentry honline rfl
  exact ⟨_, hstep, hended, hcleared, hothers⟩

end Sys2Proof.Machine
end

section
/-! SUPPORT. The course of an event that ends steps at several lanes: what it leaves and frees, the verdicts it counts, the test
of the run's end, and that one course after another is a course. -/

namespace Sys2Proof.Machine

/-! ## Verdicts counted -/

/-- Run control with the summary counts of the two verdicts without a reading raised. -/
def RunControl.countingEnds (run : RunControl) (faults aborts : Nat) : RunControl :=
  (run.countingMany .matrixFault faults).countingMany .aborted aborts

namespace RunControl

variable (run : RunControl)

theorem verdicts_countingEnds (faults aborts : Nat) (i : Nat) (hi : i < 11) :
    (run.countingEnds faults aborts).summary.verdicts[i] =
      run.summary.verdicts[i] + (if i = 8 then faults else 0) + (if i = 10 then aborts else 0) := by
  unfold countingEnds countingMany
  simp only [Verdict.index, Fin.getElem_fin, Vector.getElem_set]
  by_cases h8 : i = 8
  · subst h8; rfl
  · by_cases h10 : i = 10
    · subst h10; rfl
    · have h8' : ¬ ((8 : Fin 11).val = i) := fun h => h8 h.symm
      have h10' : ¬ ((10 : Fin 11).val = i) := fun h => h10 h.symm
      rw [if_neg h10', if_neg h8', if_neg h8, if_neg h10]
      rfl

theorem countingEnds_countingEnds (a b c d : Nat) :
    (run.countingEnds a b).countingEnds c d = run.countingEnds (a + c) (b + d) := by
  have hverdicts : ((run.countingEnds a b).countingEnds c d).summary.verdicts =
      (run.countingEnds (a + c) (b + d)).summary.verdicts := by
    refine Vector.ext fun i hi => ?_
    rw [verdicts_countingEnds, verdicts_countingEnds, verdicts_countingEnds]
    split_ifs <;> omega
  exact congrArg (fun v => ({ run with summary := { run.summary with verdicts := v } } : RunControl)) hverdicts

theorem countingMany_zero (v : Verdict) : run.countingMany v 0 = run := by
  unfold countingMany
  rw [Nat.add_zero]
  exact congrArg (fun v => ({ run with summary := { run.summary with verdicts := v } } : RunControl)) (Vector.set_getElem_self _)

theorem countingEnds_zero : run.countingEnds 0 0 = run := by
  unfold countingEnds
  rw [countingMany_zero, countingMany_zero]

theorem countingEnds_aborts (n : Nat) : run.countingEnds 0 n = run.countingMany .aborted n := by
  unfold countingEnds
  rw [countingMany_zero]

theorem counting_matrixFault : run.counting .matrixFault = run.countingEnds 1 0 := by
  unfold countingEnds
  rw [countingMany_zero]
  rfl

theorem counting_aborted : run.counting .aborted = run.countingEnds 0 1 := by
  rw [countingEnds_aborts]
  rfl

end RunControl

/-! ## The test of a run's end -/

theorem RunEndTested.congr {run : RunControl} {latches : Conditions} {t u : State} (h : RunEndTested run latches t)
    (hrun : u.run = t.run) (hlatches : u.latches = t.latches) (hsteps : u.steps = t.steps)
    (hidle : u.allLanesIdle = t.allLanesIdle) : RunEndTested run latches u := by
  have hcandidates : u.candidates = t.candidates := by unfold State.candidates; rw [hsteps, hrun]
  have hcount : u.notRunCount = t.notRunCount := by unfold State.notRunCount; rw [hsteps, hrun]
  unfold RunEndTested RunControl.closedBy at *
  rwa [hidle, hcandidates, hcount, hrun, hlatches]

/-- While a lane is busy no run ends. -/
theorem RunEndTested.iff_of_busy {run : RunControl} {latches : Conditions} {t : State} (h : t.allLanesIdle = false) :
    RunEndTested run latches t ↔ t.run = run ∧ t.latches = latches := by
  unfold RunEndTested
  simp [h]

theorem RunEndTested.again {run : RunControl} {latches : Conditions} {t : State}
    (h : RunEndTested run latches t ∨ (t.run = run ∧ t.latches = latches)) : RunEndTested run latches t.testRunEnd := by
  rcases h with h | ⟨hrun, hlatches⟩
  · have hsame : t.testRunEnd = t := by
      unfold RunEndTested at h
      unfold State.testRunEnd
      split_ifs at h with hdone hdrained
      · rw [h.1]
        simp [RunControl.closedBy]
      · rw [h.1]
        simp [RunControl.closedBy]
      · rw [h.1, if_neg hdone, if_neg hdrained]
    rw [hsame]
    exact h
  · exact .of_testRunEnd hrun hlatches

/-! ## Lanes that leave their step or become IDLE -/

/-- Some lane has become IDLE. -/
def SomeIdled (s t : State) : Bool := allLanes.any (fun m => BecameIdle s t m)

/-- The number of lanes that have ended their step's own part. -/
def leftCount (s t : State) : Nat := (allLanes.filter (fun m => Left s t m)).length

theorem becameIdle_iff (s t : State) (m : LaneNo) :
    BecameIdle s t m = true ↔ (s.laneAt m).phase ≠ .idle ∧ (t.laneAt m).phase = .idle := by
  unfold BecameIdle
  rw [Bool.and_eq_true, decide_eq_true_eq, decide_eq_true_eq]

theorem someIdled_iff (s t : State) : SomeIdled s t = true ↔ ∃ m, (s.laneAt m).phase ≠ .idle ∧ (t.laneAt m).phase = .idle := by
  unfold SomeIdled
  rw [List.any_eq_true]
  constructor
  · rintro ⟨m, -, hm⟩
    exact ⟨m, (becameIdle_iff s t m).mp hm⟩
  · rintro ⟨m, hm⟩
    exact ⟨m, mem_allLanes m, (becameIdle_iff s t m).mpr hm⟩

/-- Each lane is in the phase it was in, or has gone on to RELEASING or to IDLE; a busy lane holds its slot. -/
structure LanesOn (s t : State) : Prop where
  phase : ∀ m, (t.laneAt m).phase = (s.laneAt m).phase
    ∨ ((s.laneAt m).phase ≠ .idle ∧ ((t.laneAt m).phase = .releasing ∨ (t.laneAt m).phase = .idle))
  slot : ∀ m, (t.laneAt m).phase ≠ .idle → (t.laneAt m).heldSlot = (s.laneAt m).heldSlot

namespace LanesOn

variable {s t u : State}

theorem idle (h : LanesOn s t) {m : LaneNo} (hm : (s.laneAt m).phase = .idle) : (t.laneAt m).phase = .idle := by
  rcases h.phase m with heq | ⟨hne, -⟩
  · rw [heq, hm]
  · exact absurd hm hne

theorem measuring (h : LanesOn s t) {m : LaneNo} (hm : (t.laneAt m).phase = .measuring) : (s.laneAt m).phase = .measuring := by
  rcases h.phase m with heq | ⟨-, hrel | hidle⟩
  · rw [← heq, hm]
  · rw [hrel] at hm; cases hm
  · rw [hidle] at hm; cases hm

theorem underway (h : LanesOn s t) {m : LaneNo} (hm : (t.laneAt m).phase.underway = true) :
    (s.laneAt m).phase.underway = true := by
  rcases h.phase m with heq | ⟨-, hrel | hidle⟩
  · rw [← heq, hm]
  · rw [hrel] at hm; cases hm
  · rw [hidle] at hm; cases hm

theorem trans (h : LanesOn s t) (g : LanesOn t u) : LanesOn s u where
  phase m := by
    rcases g.phase m with heq | ⟨hne, hu⟩
    · rcases h.phase m with heq' | ⟨hne', ht⟩
      · exact .inl (heq.trans heq')
      · exact .inr ⟨hne', by rwa [heq]⟩
    · exact .inr ⟨fun hidle => hne (h.idle hidle), hu⟩
  slot m hm := by
    have hbusy : (t.laneAt m).phase ≠ .idle := fun hidle => hm (g.idle hidle)
    rw [g.slot m hm, h.slot m hbusy]

theorem becameIdle (h : LanesOn s t) (g : LanesOn t u) (m : LaneNo) :
    BecameIdle s u m = (BecameIdle s t m || BecameIdle t u m) := by
  rw [Bool.eq_iff_iff, Bool.or_eq_true, becameIdle_iff, becameIdle_iff, becameIdle_iff]
  constructor
  · rintro ⟨hs, hu⟩
    by_cases ht : (t.laneAt m).phase = .idle
    · exact .inl ⟨hs, ht⟩
    · exact .inr ⟨ht, hu⟩
  · rintro (⟨hs, ht⟩ | ⟨ht, hu⟩)
    · exact ⟨hs, g.idle ht⟩
    · exact ⟨fun hs => ht (h.idle hs), hu⟩

theorem someIdled (h : LanesOn s t) (g : LanesOn t u) : SomeIdled s u = (SomeIdled s t || SomeIdled t u) := by
  unfold SomeIdled
  simp only [h.becameIdle g]
  rw [Bool.eq_iff_iff, Bool.or_eq_true]
  simp only [List.any_eq_true, Bool.or_eq_true, and_or_left, exists_or]

theorem leftCount (h : LanesOn s t) (g : LanesOn t u) : leftCount s u = leftCount s t + leftCount t u := by
  have hleft (m : LaneNo) : Left s u m = (Left s t m || Left t u m) ∧ ¬ (Left s t m = true ∧ Left t u m = true) := by
    have hst := h.underway (m := m)
    have htu := g.underway (m := m)
    unfold Left
    cases hs : (s.laneAt m).phase.underway <;> cases ht : (t.laneAt m).phase.underway <;>
      cases hu : (u.laneAt m).phase.underway <;> simp_all
  unfold Machine.leftCount
  have hfilter (ls : List LaneNo) : (ls.filter (fun m => Left s u m)).length =
      (ls.filter (fun m => Left s t m)).length + (ls.filter (fun m => Left t u m)).length := by
    induction ls with
    | nil => rfl
    | cons m ls ih =>
      obtain ⟨hor, hnot⟩ := hleft m
      simp only [List.filter_cons, hor]
      cases hst : Left s t m <;> cases htu : Left t u m <;> simp_all <;> omega
  exact hfilter allLanes

theorem allIdle (h : LanesOn s t) (hs : s.allLanesIdle = true) : t.allLanesIdle = true :=
  (State.allLanesIdle_iff t).mpr fun m => h.idle ((State.allLanesIdle_iff s).mp hs m)

/-- Lanes that became IDLE are all there is to become IDLE. -/
theorem allIdle_of_none (h : SomeIdled s t = false) (ht : t.allLanesIdle = true) : s.allLanesIdle = true := by
  refine (State.allLanesIdle_iff s).mpr fun m => ?_
  by_contra hm
  rw [(someIdled_iff s t).mpr ⟨m, hm, (State.allLanesIdle_iff t).mp ht m⟩] at h
  cases h

theorem someIdled_of_allIdle (hs : s.allLanesIdle = true) : SomeIdled s t = false := by
  rw [Bool.eq_false_iff, Ne, someIdled_iff]
  rintro ⟨m, hm, -⟩
  exact hm ((State.allLanesIdle_iff s).mp hs m)

theorem leftCount_of_allIdle (hs : s.allLanesIdle = true) : Machine.leftCount s t = 0 := by
  unfold Machine.leftCount
  rw [List.length_eq_zero_iff, List.filter_eq_nil_iff]
  intro m _
  unfold Left
  rw [(State.allLanesIdle_iff s).mp hs m]
  simp [LanePhase.underway]

end LanesOn

theorem StepsEndedFrame.trans {s t u : State} (hl : LanesOn s t) (gl : LanesOn t u) (h : StepsEndedFrame s t)
    (g : StepsEndedFrame t u) : StepsEndedFrame s u := by
  obtain ⟨hslots, hnails, hsame, hports⟩ := h
  obtain ⟨gslots, gnails, gsame, gports⟩ := g
  refine ⟨fun j hj => ?_, fun n => ?_, fun hnone => ?_, fun l => ?_⟩
  · rw [gslots j fun l hbusy => ?_, hslots j hj]
    rw [hl.slot l hbusy]
    exact hj l fun hidle => hbusy (hl.idle hidle)
  · obtain ⟨hstate, hcommon, hfails, hbindings⟩ := hnails n
    obtain ⟨gstate, gcommon, gfails, gbindings⟩ := gnails n
    refine ⟨gstate.trans hstate, gcommon.trans hcommon, gfails.trans hfails, fun l => ?_⟩
    rw [gbindings l, hbindings l, hl.becameIdle gl l]
    cases BecameIdle s t l <;> cases BecameIdle t u l <;> rfl
  · have hboth (l : LaneNo) : BecameIdle s t l = false ∧ BecameIdle t u l = false := by
      rw [← Bool.or_eq_false_iff, ← hl.becameIdle gl l]
      exact hnone l
    rw [gsame fun l => (hboth l).2, hsame fun l => (hboth l).1]
  · rw [gports l, hports l]
    by_cases hs : (s.laneAt l).phase = .measuring
    · by_cases ht : (t.laneAt l).phase = .measuring
      · simp [hs, ht]
      · have hu : (u.laneAt l).phase ≠ .measuring := fun hu => ht (gl.measuring hu)
        simp [hs, ht, hu]
    · have ht : (t.laneAt l).phase ≠ .measuring := fun ht => hs (hl.measuring ht)
      simp [hs, ht]

/-! ## Courses -/

/-- An event has ended steps at some lanes, by MATRIX_FAULT and ABORTED so many of each, and released lanes. -/
structure Course (s t : State) (faults aborts : Nat) : Prop where
  lanes : LanesOn s t
  frame : StepsEndedFrame s t
  run : if SomeIdled s t then RunEndTested (s.run.countingEnds faults aborts) s.latches t
    else t.run = s.run.countingEnds faults aborts ∧ t.latches = s.latches
  exam : t.exam = examAfter (SomeIdled s t) s.run.state s.exam
  left : faults + aborts = leftCount s t
  still : s.allLanesIdle = true → t.steps = s.steps
  cards : t.cards = s.cards
  timebase : t.timebase = s.timebase
  number : t.run.number = s.run.number
  mode : t.run.summary.mode = s.run.summary.mode
  census : s.waits 4 = false → t.census = s.census

namespace Course

variable {s t u : State} {a b c d : Nat}

/-- A run that has been closed stays as it is: every lane is IDLE. -/
theorem of_allIdle (h : Course s t a b) (hs : s.allLanesIdle = true) :
    a = 0 ∧ b = 0 ∧ t.run = s.run ∧ t.latches = s.latches ∧ t.steps = s.steps := by
  have hleft := h.left
  rw [LanesOn.leftCount_of_allIdle hs] at hleft
  obtain ⟨ha, hb⟩ : a = 0 ∧ b = 0 := by omega
  have hrun := h.run
  rw [LanesOn.someIdled_of_allIdle hs, if_neg (by decide), ha, hb, RunControl.countingEnds_zero] at hrun
  exact ⟨ha, hb, hrun.1, hrun.2, h.still hs⟩

/-- As long as a lane is busy the run goes on with its counts. -/
theorem run_of_busy (h : Course s t a b) (ht : t.allLanesIdle = false) :
    t.run = s.run.countingEnds a b ∧ t.latches = s.latches := by
  have hrun := h.run
  split at hrun
  · exact (RunEndTested.iff_of_busy ht).mp hrun
  · exact hrun

theorem waits_congr {s t : State} (h : t.census = s.census) : t.waits 4 = s.waits 4 := by
  unfold State.waits
  rw [h]
  rfl

theorem run_trans (h : Course s t a b) (g : Course t u c d) :
    if SomeIdled s u then RunEndTested (s.run.countingEnds (a + c) (b + d)) s.latches u
    else u.run = s.run.countingEnds (a + c) (b + d) ∧ u.latches = s.latches := by
  rw [h.lanes.someIdled g.lanes]
  cases hidle : t.allLanesIdle with
  | true =>
    obtain ⟨rfl, rfl, hrun, hlatches, hsteps⟩ := g.of_allIdle hidle
    have hold := h.run
    rw [LanesOn.someIdled_of_allIdle hidle, Bool.or_false, Nat.add_zero, Nat.add_zero]
    cases hst : SomeIdled s t with
    | true =>
      rw [hst, if_pos rfl] at hold
      exact hold.congr hrun hlatches hsteps ((g.lanes.allIdle hidle).trans hidle.symm)
    | false =>
      rw [hst, if_neg (by decide)] at hold
      exact ⟨hrun.trans hold.1, hlatches.trans hold.2⟩
  | false =>
    obtain ⟨hrun, hlatches⟩ := h.run_of_busy hidle
    have hnew := g.run
    rw [hrun, RunControl.countingEnds_countingEnds, hlatches] at hnew
    cases htu : SomeIdled t u with
    | true =>
      rw [htu, if_pos rfl] at hnew
      rw [Bool.or_true]
      exact hnew
    | false =>
      rw [htu, if_neg (by decide)] at hnew
      rw [Bool.or_false]
      have hbusy : u.allLanesIdle = false := by
        rw [Bool.eq_false_iff]
        intro hu
        rw [LanesOn.allIdle_of_none htu hu] at hidle
        cases hidle
      cases SomeIdled s t with
      | true => exact (RunEndTested.iff_of_busy hbusy).mpr hnew
      | false => exact hnew

theorem exam_trans (h : Course s t a b) (g : Course t u c d) : u.exam = examAfter (SomeIdled s u) s.run.state s.exam := by
  rw [g.exam, h.exam, h.lanes.someIdled g.lanes]
  cases hidle : t.allLanesIdle with
  | true =>
    rw [LanesOn.someIdled_of_allIdle hidle, Bool.or_false]
    rfl
  | false =>
    rw [(h.run_of_busy hidle).1]
    show examAfter _ s.run.state _ = _
    unfold examAfter
    cases SomeIdled s t <;> cases SomeIdled t u <;> simp +contextual

theorem trans (h : Course s t a b) (g : Course t u c d) : Course s u (a + c) (b + d) where
  lanes := h.lanes.trans g.lanes
  frame := h.frame.trans h.lanes g.lanes g.frame
  run := h.run_trans g
  exam := h.exam_trans g
  left := by rw [h.lanes.leftCount g.lanes, ← h.left, ← g.left]; omega
  still hs := (g.still (h.lanes.allIdle hs)).trans (h.still hs)
  cards := g.cards.trans h.cards
  timebase := g.timebase.trans h.timebase
  number := g.number.trans h.number
  mode := g.mode.trans h.mode
  census hw := by
    have hst := h.census hw
    exact (g.census ((waits_congr hst).trans hw)).trans hst

/-- A change of requests, pending ends and the link leaves every step as it is. -/
theorem of_requests (hphase : ∀ m, (t.laneAt m).phase = (s.laneAt m).phase)
    (hslot : ∀ m, (t.laneAt m).heldSlot = (s.laneAt m).heldSlot) (hcensus : s.waits 4 = false → t.census = s.census)
    (hrest : ∃ lanes link census draws, t = { s with lanes := lanes, link := link, census := census, freeDraws := draws }) :
    Course s t 0 0 := by
  have hidled : SomeIdled s t = false := by
    rw [Bool.eq_false_iff, Ne, someIdled_iff]
    rintro ⟨m, hs, ht⟩
    exact hs ((hphase m).symm.trans ht)
  have hnone (m : LaneNo) : BecameIdle s t m = false := by
    rw [Bool.eq_false_iff, Ne, becameIdle_iff, hphase m]
    exact fun hand => hand.1 hand.2
  have hleft : leftCount s t = 0 := by
    unfold leftCount Left
    simp [hphase]
  obtain ⟨lanes, link, census, draws, rfl⟩ := hrest
  exact
    { lanes := ⟨fun m => .inl (hphase m), fun m _ => hslot m⟩
      frame := ⟨fun _ _ => rfl, fun n => ⟨rfl, rfl, rfl, fun l => by rw [hnone l]; rfl⟩, fun _ => rfl, fun l => by
        rw [if_neg fun hand => hand.2 ((hphase l).trans hand.1)]
        rfl⟩
      run := by rw [hidled, if_neg (by decide), RunControl.countingEnds_zero]; exact ⟨rfl, rfl⟩
      exam := by rw [hidled]; rfl
      left := hleft.symm
      still := fun _ => rfl
      cards := rfl
      timebase := rfl
      number := rfl
      mode := rfl
      census := hcensus }

theorem refl (s : State) : Course s s 0 0 := of_requests (fun _ => rfl) (fun _ => rfl) (fun _ => rfl) ⟨_, _, _, _, rfl⟩

end Course

end Sys2Proof.Machine
end

section
/-! SUPPORT. The course of one lane's event: its OPEN sequence, the end of its step, and a verdict recorded on its way there. -/

namespace Sys2Proof.Machine

/-! ## The end of a release as a course -/

theorem State.slotAt_endRelease_other {s : State} {l : LaneNo} {j : Slot} (h : (s.laneAt l).heldSlot ≠ some j) :
    (s.endRelease l).slotAt j = s.slotAt j := by
  rw [State.slotAt_congr (s.endRelease_steps l)]
  unfold State.releasedTables
  cases hslot : (s.laneAt l).heldSlot with
  | none => rfl
  | some k =>
    have hj : j ≠ k := fun hjk => h (hslot.trans (congrArg some hjk.symm))
    by_cases hheld : ∃ r p d q, (s.freeBindings l).recordAt k = some r ∧ r.status = .held p d q
    · obtain ⟨r, p, d, q, hr, hstatus⟩ := hheld
      exact (State.slotAt_resolve hr hstatus j).trans (if_neg hj)
    · dsimp only
      rw [State.resolve_of_not_held fun r hr => ?_]
      · rfl
      · cases hstatus : r.status with
        | ready | parked _ => rfl
        | held p d q => exact absurd ⟨r, p, d, q, hr, hstatus⟩ hheld

/-- The end of a release frees its lane, and counts no verdict. -/
theorem Course.of_release {s : State} (hcanon : s.canonical = true) {l : LaneNo} (hphase : (s.laneAt l).phase = .releasing) :
    Course s (s.endRelease l) 0 0 := by
  have hframe := LaneFrame.endRelease l s
  have hself := s.laneAt_endRelease l
  have hidle : ((s.endRelease l).laneAt l).phase = .idle := by rw [hself]; rfl
  have hbusy : (s.laneAt l).phase ≠ .idle := by rw [hphase]; decide
  have hbecame (m : LaneNo) : BecameIdle s (s.endRelease l) m = decide (m = l) := by
    rw [Bool.eq_iff_iff, becameIdle_iff, decide_eq_true_eq]
    constructor
    · rintro ⟨hm, hm'⟩
      by_contra hne
      rw [hframe.lanes m hne] at hm'
      exact hm hm'
    · rintro rfl
      exact ⟨hbusy, hidle⟩
  have hsome : SomeIdled s (s.endRelease l) = true := (someIdled_iff _ _).mpr ⟨l, hbusy, hidle⟩
  have hleft : leftCount s (s.endRelease l) = 0 := by
    unfold leftCount Left
    rw [List.length_eq_zero_iff, List.filter_eq_nil_iff]
    intro m _
    by_cases hm : m = l
    · rw [hm, hphase]; simp [LanePhase.underway]
    · rw [hframe.lanes m hm]; simp
  obtain ⟨htimebase, -⟩ := hframe.settings
  refine
    { lanes := ⟨fun m => ?_, fun m hm => ?_⟩
      frame := ⟨fun j hj => State.slotAt_endRelease_other (hj l hbusy), fun n => ?_, fun hnone => ?_, fun m => ?_⟩
      run := ?_
      exam := ?_
      left := hleft.symm
      still := fun hall => absurd ((State.allLanesIdle_iff s).mp hall l) hbusy
      cards := hframe.cards
      timebase := htimebase
      number := hframe.number
      mode := hframe.mode
      census := fun _ => hframe.census }
  · by_cases hm : m = l
    · rw [hm]; exact .inr ⟨hbusy, .inr hidle⟩
    · rw [hframe.lanes m hm]; exact .inl rfl
  · have hne : m ≠ l := fun heq => hm (heq ▸ hidle)
    rw [hframe.lanes m hne]
  · obtain ⟨hstate, hcommon, hfails⟩ := State.nailAt_endRelease_rest hcanon l n
    refine ⟨hstate, hcommon, hfails, fun m => ?_⟩
    rw [State.bindings_endRelease hcanon, hbecame m]
    by_cases hm : m = l
    · simp [hm]
    · have hval : l.val ≠ m.val := fun heq => hm (Fin.ext heq.symm)
      simp [hm, hval]
  · have hl := hnone l
    rw [hbecame l] at hl
    simp at hl
  · rw [State.portAt_congr (s.ports_endRelease l), if_neg]
    rintro ⟨hm, hm'⟩
    by_cases heq : m = l
    · rw [heq, hphase] at hm; cases hm
    · rw [hframe.lanes m heq] at hm'; exact hm' hm
  · rw [hsome, if_pos rfl, RunControl.countingEnds_zero]
    exact s.endRelease_tested l
  · rw [hsome]
    exact s.exam_endRelease l

/-! ## The OPEN sequence as a course (R122) -/

section
variable {s t u : State} {l : LaneNo}

theorem Course.setLane {v : Lane} (hphase : v.phase = (s.laneAt l).phase) (hslot : v.heldSlot = (s.laneAt l).heldSlot) :
    Course s (s.setLane l v) 0 0 := by
  refine .of_requests (fun m => ?_) (fun m => ?_) (fun _ => rfl) ⟨_, _, _, _, rfl⟩
  · by_cases hm : m = l
    · rw [hm, State.laneAt_setLane_self, hphase]
    · rw [State.laneAt_setLane, if_neg hm]
  · by_cases hm : m = l
    · rw [hm, State.laneAt_setLane_self, hslot]
    · rw [State.laneAt_setLane, if_neg hm]

theorem Course.startReleaseWait (hcanon : s.canonical = true) (hphase : (s.laneAt l).phase = .releasing) :
    Course s (s.startReleaseWait l) 0 0 := by
  have hopened : Course s (s.setLane l { s.laneAt l with openPosition := 0 }) 0 0 := .setLane rfl rfl
  rcases s.startReleaseWait_cases l with heq | ⟨wait, -, -, heq⟩ <;> rw [heq]
  · exact hopened.trans (.of_release ((State.canonical_setLane s l _).trans hcanon)
      (by rw [State.laneAt_setLane_self]; exact hphase))
  · refine hopened.trans (.setLane ?_ ?_) <;> rw [State.laneAt_setLane_self]

theorem Course.openSequence (hcanon : s.canonical = true) (hphase : (s.laneAt l).phase = .releasing) (n : Nat) :
    Course s (State.openSequence l n s) 0 0 := by
  rcases State.openSequence_cases l n s with heq | ⟨m, _, _, _, _, _, heq⟩ <;> rw [heq]
  · exact .startReleaseWait hcanon hphase
  · exact .setLane rfl rfl

/-! ## The slot of a lane's record -/

theorem SlotHeldOrResolved.of_busy {k : Slot} {mark : Bool} {r : StepRecord} (hbusy : (t.laneAt l).phase ≠ .idle)
    (h : t.slotAt k = { runMark := mark, record := some r }) : SlotHeldOrResolved s t l k mark r := by
  unfold SlotHeldOrResolved
  split
  · rename_i hidle _; exact absurd hidle hbusy
  · exact h

theorem SlotHeldOrResolved.endRelease (hcanon : s.canonical = true) {k : Slot} {r : StepRecord}
    (hslot : (s.laneAt l).heldSlot = some k) (hr : s.recordAt k = some r) :
    SlotHeldOrResolved s (s.endRelease l) l k (s.slotAt k).runMark r := by
  have hidle : ((s.endRelease l).laneAt l).phase = .idle := by rw [State.laneAt_endRelease]; rfl
  unfold SlotHeldOrResolved
  rw [hidle]
  cases hstatus : r.status with
  | held p d q => exact (State.slotAt_endRelease hcanon hslot hr hstatus k).trans (if_pos rfl)
  | ready | parked _ =>
    have hsame : (s.freeBindings l).resolve k = s.freeBindings l := State.resolve_of_not_held fun x hx => by
      obtain rfl : r = x := Option.some.inj (hr.symm.trans hx)
      rw [hstatus]
      rfl
    rw [State.slotAt_congr (s.endRelease_steps l), State.releasedTables_of_slot hslot, hsame]
    exact (congrArg (StepSlot.mk (s.slotAt k).runMark) hr : _)

theorem SlotHeldOrResolved.congr_left {b : State} {k : Slot} {mark : Bool} {r : StepRecord}
    (hstate : ∀ n, (b.nailAt n).state = (s.nailAt n).state) (h : SlotHeldOrResolved b t l k mark r) :
    SlotHeldOrResolved s t l k mark r := by
  unfold SlotHeldOrResolved at *
  simpa only [resolvedSlot_congr hstate] using h

theorem State.slotAt_of_record {k : Slot} {r : StepRecord} (h : s.recordAt k = some r) :
    s.slotAt k = { runMark := (s.slotAt k).runMark, record := some r } :=
  congrArg (StepSlot.mk (s.slotAt k).runMark) h

theorem SlotHeldOrResolved.startReleaseWait (hcanon : s.canonical = true) (hphase : (s.laneAt l).phase = .releasing) {k : Slot}
    {r : StepRecord} (hslot : (s.laneAt l).heldSlot = some k) (hr : s.recordAt k = some r) :
    SlotHeldOrResolved s (s.startReleaseWait l) l k (s.slotAt k).runMark r := by
  rcases s.startReleaseWait_cases l with heq | ⟨wait, -, -, heq⟩ <;> rw [heq]
  · exact .endRelease (s := s.setLane l { s.laneAt l with openPosition := 0 }) ((State.canonical_setLane s l _).trans hcanon)
      (by rw [State.laneAt_setLane_self]; exact hslot) hr
  · refine .of_busy ?_ (State.slotAt_of_record hr)
    rw [State.laneAt_setLane_self, hphase]
    decide

theorem SlotHeldOrResolved.openSequence (hcanon : s.canonical = true) (hphase : (s.laneAt l).phase = .releasing) {k : Slot}
    {r : StepRecord} (hslot : (s.laneAt l).heldSlot = some k) (hr : s.recordAt k = some r) (n : Nat) :
    SlotHeldOrResolved s (State.openSequence l n s) l k (s.slotAt k).runMark r := by
  rcases State.openSequence_cases l n s with heq | ⟨m, _, _, _, _, _, heq⟩ <;> rw [heq]
  · exact .startReleaseWait hcanon hphase hslot hr
  · refine .of_busy ?_ (State.slotAt_of_record hr)
    rw [State.laneAt_setLane_self, hphase]
    decide

/-! ## Where the OPEN sequence stands -/

theorem OpeningFrom.skip {nails : List (Role × NailNo)} {n : Nat} {base : Lane}
    (hoff : ∀ e, nails[n]? = some e → t.nailOnline e.2 = false) (h : OpeningFrom t l nails n base) :
    OpeningFrom t l nails (n + 1) base := by
  obtain ⟨p, hp, hpassed, hlane⟩ := h
  refine ⟨p, by omega, fun e he => ?_, hlane⟩
  rw [List.take_add_one, List.drop_append] at he
  rcases List.mem_append.mp he with he | he
  · exact hpassed e he
  · exact hoff e (Option.mem_toList.mp (List.mem_of_mem_drop he))

theorem OpeningFrom.startReleaseWait {nails : List (Role × NailNo)} (hrequest : (s.laneAt l).linkRequest = .none) :
    OpeningFrom (s.startReleaseWait l) l nails 0 (s.laneAt l) := by
  have hframe := LaneFrame.startReleaseWait l s
  obtain ⟨htimebase, -⟩ := hframe.settings
  have htimes : (s.startReleaseWait l).releaseTime = s.releaseTime := by
    funext c
    unfold State.releaseTime
    rw [State.cardAt_congr hframe.cards]
  have htick : (s.startReleaseWait l).tick = s.tick := by unfold State.tick; rw [htimebase]
  refine ⟨0, by omega, fun e he => by simp at he, ?_⟩
  rw [if_pos rfl, htimes, htick]
  dsimp only
  unfold State.startReleaseWait
  dsimp only
  split_ifs with hzero
  · exact State.laneAt_endRelease _ _
  · rw [State.laneAt_setLane_self, State.laneAt_setLane_self, ← hrequest]

theorem OpeningFrom.openSequence (hrequest : (s.laneAt l).linkRequest = .none) (n : Nat) :
    OpeningFrom (State.openSequence l n s) l (s.heldNails l) n (s.laneAt l) := by
  have hframe (n : Nat) := LaneFrame.openSequence l n s
  induction n with
  | zero => exact .startReleaseWait hrequest
  | succ n ih =>
    unfold State.openSequence
    cases hentry : (s.heldNails l)[n]? with
    | none => exact ih.skip fun e he => nomatch hentry.symm.trans he
    | some e =>
      obtain ⟨bus, nail⟩ := e
      dsimp only
      split_ifs with honline
      · refine ⟨n + 1, by omega, fun x hx => ?_, ?_⟩
        · rw [List.drop_eq_nil_of_le (List.length_take_le _ _)] at hx
          cases hx
        · rw [if_neg (by omega), State.laneAt_setLane_self, Nat.add_sub_cancel, hentry]
          exact ⟨honline, .inl rfl, rfl⟩
      · refine ih.skip fun x hx => ?_
        obtain rfl : (bus, nail) = x := Option.some.inj (hentry.symm.trans hx)
        rw [State.nailOnline_congr (hframe n).cards]
        simpa using honline

end

/-! ## What later events leave of it -/

/-- A lane is as it was, but that its waiting request may have been granted. -/
def GrantedLane (t u : State) (l : LaneNo) : Prop :=
  u.laneAt l = t.laneAt l ∨ ((t.laneAt l).linkRequest = .waiting ∧ u.laneAt l = { t.laneAt l with linkRequest := .inFlight })

theorem GrantedLane.phase {t u : State} {l : LaneNo} (h : GrantedLane t u l) : (u.laneAt l).phase = (t.laneAt l).phase := by
  rcases h with h | ⟨-, h⟩ <;> rw [h]

theorem GrantedLane.kept {t u : State} {l : LaneNo} (h : GrantedLane t u l) (hno : (t.laneAt l).linkRequest ≠ .waiting) :
    u.laneAt l = t.laneAt l := h.resolve_right fun hgrant => hno hgrant.1

theorem OpeningFrom.stable {t u : State} {l : LaneNo} {nails : List (Role × NailNo)} {n : Nat} {base : Lane}
    (hlane : GrantedLane t u l) (hcards : u.cards = t.cards) (htimebase : u.timebase = t.timebase)
    (h : OpeningFrom t l nails n base) : OpeningFrom u l nails n base := by
  have honline (m : NailNo) : u.nailOnline m = t.nailOnline m := State.nailOnline_congr hcards m
  have htimes : u.releaseTime = t.releaseTime := by
    funext c
    unfold State.releaseTime
    rw [State.cardAt_congr hcards]
  have htick : u.tick = t.tick := by unfold State.tick; rw [htimebase]
  obtain ⟨p, hp, hpassed, hposition⟩ := h
  refine ⟨p, hp, fun e he => (honline e.2).trans (hpassed e he), ?_⟩
  by_cases hzero : p = 0
  · rw [if_pos hzero] at hposition ⊢
    rw [htimes, htick]
    dsimp only at hposition ⊢
    rw [hlane.kept ?_]
    · exact hposition
    · rw [hposition]
      split <;> exact nofun
  · rw [if_neg hzero] at hposition ⊢
    obtain ⟨hany, hrequest, heq⟩ := hposition
    refine ⟨by simpa only [honline] using hany, ?_, ?_⟩
    · rcases hlane with h | ⟨-, h⟩ <;> rw [h]
      · exact hrequest
      · exact .inr rfl
    · rcases hlane with h | ⟨-, h⟩ <;> rw [h]
      · exact heq
      · rw [heq]

theorem SlotHeldOrResolved.stable {s t u : State} {l : LaneNo} {k : Slot} {mark : Bool} {r : StepRecord}
    (hlane : GrantedLane t u l) (hslot : u.slotAt k = t.slotAt k) (h : SlotHeldOrResolved s t l k mark r) :
    SlotHeldOrResolved s u l k mark r := by
  unfold SlotHeldOrResolved at *
  rw [hslot, hlane.phase]
  exact h

theorem StepEndedBy.stable {s t u : State} {l : LaneNo} {v : Verdict} (hlane : GrantedLane t u l)
    (hslot : ∀ k ∈ (s.laneAt l).heldSlot, u.slotAt k = t.slotAt k) (hcards : u.cards = t.cards)
    (htimebase : u.timebase = t.timebase) (h : StepEndedBy s t l v) : StepEndedBy s u l v := by
  unfold StepEndedBy at *
  cases hheld : s.heldBy l with
  | none => rw [hheld] at h; exact h
  | some kr =>
    obtain ⟨k, r⟩ := kr
    rw [hheld] at h
    obtain ⟨hrecord, hopening⟩ := h
    refine ⟨hrecord.stable hlane (hslot k ((State.heldBy_eq_some s l k r).mp hheld).1), ?_⟩
    have hstates (c : CardNo) : (u.cardAt c).state = (t.cardAt c).state := by rw [State.cardAt_congr hcards]
    simp only [hstates]
    exact hopening.stable hlane hcards htimebase

/-- What a step's end says of the lane before it is its slot, its closed count, its retries and its range. -/
theorem StepEndedBy.congr_left {s b t : State} {l : LaneNo} {v : Verdict} (hheld : b.heldBy l = s.heldBy l)
    (hstate : ∀ n, (b.nailAt n).state = (s.nailAt n).state) (hmode : b.run.summary.mode = s.run.summary.mode)
    (hnumber : b.run.number = s.run.number)
    (hlane : ∃ phase request pending release position timer, b.laneAt l =
      { s.laneAt l with
        phase := phase, linkRequest := request, pendingEnd := pending, releaseSet := release, openPosition := position,
        timer := timer })
    (h : StepEndedBy b t l v) : StepEndedBy s t l v := by
  obtain ⟨phase, request, pending, release, position, timer, hlane⟩ := hlane
  unfold StepEndedBy at *
  rw [hheld] at h
  cases hs : s.heldBy l with
  | none => rw [hs] at h; exact h
  | some kr =>
    obtain ⟨k, r⟩ := kr
    rw [hs, hlane, hmode, hnumber] at h
    obtain ⟨hrecord, hopening⟩ := h
    exact ⟨hrecord.congr_left hstate, hopening⟩

end Sys2Proof.Machine
end

section
/-! SUPPORT. Ends of a step without a reading: a notice or an order taken by a lane, and a command that failed. -/

namespace Sys2Proof.Machine

/-! ## A verdict without a reading (R147) -/

/-- The MATRIX_FAULT verdicts an end counts. -/
def PendingEnd.faults : PendingEnd → Nat
  | .matrixFault => 1
  | .aborted => 0

/-- The ABORTED verdicts an end counts. -/
def PendingEnd.aborts : PendingEnd → Nat
  | .matrixFault => 0
  | .aborted => 1

theorem PendingEnd.counted (e : PendingEnd) : e.faults + e.aborts = 1 := by cases e <;> rfl

theorem RunControl.counting_end (run : RunControl) (e : PendingEnd) :
    run.counting e.verdict = run.countingEnds e.faults e.aborts := by
  cases e with
  | matrixFault => exact run.counting_matrixFault
  | aborted => exact run.counting_aborted

theorem PendingEnd.verdict_getD (o : Option PendingEnd) :
    (o.map PendingEnd.verdict).getD .matrixFault = (o.getD .matrixFault).verdict := by
  cases o <;> rfl

/-- The record of a step that ends without a reading. -/
def StepRecord.endedBy (r : StepRecord) (s : State) (e : PendingEnd) : StepRecord :=
  { r with stats := r.stats.afterVerdict s.run.summary.mode s.run.number (VerdictWrite.bare e.verdict none) }

theorem State.recordVerdict_end {s : State} {k : Slot} {r : StepRecord} (hr : s.recordAt k = some r) (e : PendingEnd) :
    s.recordVerdict k (VerdictWrite.bare e.verdict none) =
      (s.setSlot k { runMark := true, record := some (r.endedBy s e) }).countVerdict e.verdict := by
  unfold State.recordVerdict
  rw [hr]
  dsimp only
  cases r.program.kind <;> cases e <;> rfl

/-! ## The entry to RELEASING without a reading (R121) -/

/-- A lane's verdict recorded, and the lane RELEASING, before its OPEN sequence begins. -/
def State.ending (s : State) (l : LaneNo) (k : Slot) (r : StepRecord) (e : PendingEnd) : State :=
  ((s.setSlot k { runMark := true, record := some (r.endedBy s e) }).countVerdict e.verdict).setLane l
    { s.laneAt l with
      phase := .releasing, releaseSet := s.namedReleaseSet l, openPosition := (s.laneAt l).closedCount, pendingEnd := none,
      linkRequest := .none, timer := none }

section
variable {s t : State} {l : LaneNo} {k : Slot} {r : StepRecord} {e : PendingEnd}

theorem State.enterReleasing_end (hheld : s.heldBy l = some (k, r)) :
    s.enterReleasing l (VerdictWrite.bare e.verdict none) =
      State.openSequence l (s.laneAt l).closedCount (s.ending l k r e) := by
  obtain ⟨hslot, hr⟩ := (State.heldBy_eq_some s l k r).mp hheld
  have hrecord := State.recordVerdict_end hr e
  unfold State.enterReleasing State.ending
  dsimp only
  generalize (s.laneAt l).heldSlot = held at hslot
  subst hslot
  dsimp only
  rw [hrecord]

theorem State.laneAt_ending : (s.ending l k r e).laneAt l =
    { s.laneAt l with
      phase := .releasing, releaseSet := s.namedReleaseSet l, openPosition := (s.laneAt l).closedCount, pendingEnd := none,
      linkRequest := .none, timer := none } := State.laneAt_setLane_self _ _ _

theorem State.laneAt_ending_other {m : LaneNo} (h : m ≠ l) : (s.ending l k r e).laneAt m = s.laneAt m :=
  (State.laneAt_setLane _ _ _ _).trans (if_neg h)

theorem State.slotAt_ending (j : Slot) : (s.ending l k r e).slotAt j =
    if j = k then { runMark := true, record := some (r.endedBy s e) } else s.slotAt j := by
  unfold State.ending
  rw [State.slotAt_setLane, State.countVerdict, State.slotAt_setSummary, State.slotAt_setSlot]

theorem State.heldBy_ending (hheld : s.heldBy l = some (k, r)) : (s.ending l k r e).heldBy l = some (k, r.endedBy s e) := by
  obtain ⟨hslot, hr⟩ := (State.heldBy_eq_some s l k r).mp hheld
  refine (State.heldBy_eq_some _ l k _).mpr ⟨by rw [State.laneAt_ending]; exact hslot, ?_⟩
  unfold State.recordAt
  rw [State.slotAt_ending, if_pos rfl]

theorem State.canonical_ending (h : s.canonical = true) : (s.ending l k r e).canonical = true := by
  unfold State.ending State.countVerdict
  rw [State.canonical_setLane, State.canonical_setSummary]
  exact State.canonical_setSlot h _ _

theorem leftCount_one (h : ∀ m, Left s t m = decide (m = l)) : leftCount s t = 1 := by
  have hone : ∀ x : LaneNo, (allLanes.filter (fun m => decide (m = x))).length = 1 := by decide
  unfold leftCount
  simp only [h]
  exact hone l

/-- The end of a step as a course: `c` is the state with the outstanding START of a MEASURING lane cleared. -/
theorem Course.ending {c : State} (hc : ∃ ports, c = { s with ports := ports })
    (hports : ∀ m, c.portAt m =
      if m = l ∧ (s.laneAt l).phase = .measuring then { s.portAt m with outstanding := none } else s.portAt m)
    (hunderway : (s.laneAt l).phase.underway = true) (hslot : (s.laneAt l).heldSlot = some k) :
    Course s (c.ending l k r e) e.faults e.aborts := by
  have hbusy : (s.laneAt l).phase ≠ .idle := by
    intro hidle
    rw [hidle] at hunderway
    cases hunderway
  obtain ⟨ports, rfl⟩ := hc
  have hself : ((State.ending { s with ports := ports } l k r e).laneAt l).phase = .releasing := by rw [State.laneAt_ending]
  have hother (m : LaneNo) (hm : m ≠ l) : (State.ending { s with ports := ports } l k r e).laneAt m = s.laneAt m :=
    State.laneAt_ending_other hm
  have hphase (m : LaneNo) : ((State.ending { s with ports := ports } l k r e).laneAt m).phase = .idle ↔
      (s.laneAt m).phase = .idle := by
    by_cases hm : m = l
    · rw [hm, hself]
      exact ⟨nofun, fun hidle => absurd hidle hbusy⟩
    · rw [hother m hm]
  have hnone (m : LaneNo) : BecameIdle s (State.ending { s with ports := ports } l k r e) m = false := by
    rw [Bool.eq_false_iff, Ne, becameIdle_iff, hphase m]
    exact fun hand => hand.1 hand.2
  have hidled : SomeIdled s (State.ending { s with ports := ports } l k r e) = false := by
    unfold SomeIdled
    simp [hnone]
  have hleft (m : LaneNo) : Left s (State.ending { s with ports := ports } l k r e) m = decide (m = l) := by
    unfold Left
    by_cases hm : m = l
    · rw [hm, hself, hunderway]; simp [LanePhase.underway]
    · rw [hother m hm]; simp [hm]
  refine
    { lanes := ⟨fun m => ?_, fun m _ => ?_⟩
      frame := ⟨fun j hj => ?_, fun n => ⟨rfl, rfl, rfl, fun m => by rw [hnone m]; rfl⟩, fun _ => rfl, fun m => ?_⟩
      run := by
        rw [hidled, if_neg (by decide), ← RunControl.counting_end]
        exact ⟨rfl, rfl⟩
      exam := by rw [hidled]; rfl
      left := by rw [leftCount_one hleft, e.counted]
      still := fun hall => absurd ((State.allLanesIdle_iff s).mp hall l) hbusy
      cards := rfl
      timebase := rfl
      number := rfl
      mode := rfl
      census := fun _ => rfl }
  · by_cases hm : m = l
    · rw [hm]; exact .inr ⟨hbusy, .inl hself⟩
    · rw [hother m hm]; exact .inl rfl
  · by_cases hm : m = l
    · rw [hm, State.laneAt_ending]; rfl
    · rw [hother m hm]
  · have hjk : j ≠ k := fun hjk => hj l hbusy (hjk ▸ hslot)
    exact (State.slotAt_ending j).trans (if_neg hjk)
  · refine (hports m).trans ?_
    by_cases hm : m = l
    · subst hm
      simp [hself]
    · rw [hother m hm]
      simp [hm]

/-- A step that ends without a reading, from the state with the outstanding START cleared on. -/
theorem stepEndedBy_ending {c : State} (hc : ∃ ports, c = { s with ports := ports }) (hcanon : s.canonical = true)
    (hheld : s.heldBy l = some (k, r)) :
    StepEndedBy s (State.openSequence l (s.laneAt l).closedCount (c.ending l k r e)) l e.verdict := by
  obtain ⟨ports, rfl⟩ := hc
  have hheld' : (State.ending { s with ports := ports } l k r e).heldBy l = some (k, r.endedBy s e) :=
    State.heldBy_ending (s := { s with ports := ports }) hheld
  obtain ⟨hslot, hr⟩ := (State.heldBy_eq_some _ l k _).mp hheld'
  have hlane : (State.ending { s with ports := ports } l k r e).laneAt l = _ := State.laneAt_ending
  have hcanon' : (State.ending { s with ports := ports } l k r e).canonical = true :=
    State.canonical_ending (s := { s with ports := ports }) hcanon
  have hrecord := SlotHeldOrResolved.openSequence hcanon' (by rw [hlane]) hslot hr (s.laneAt l).closedCount
  have hopening := OpeningFrom.openSequence (s := State.ending { s with ports := ports } l k r e) (l := l) (by rw [hlane])
    (s.laneAt l).closedCount
  have hcards := (LaneFrame.openSequence l (s.laneAt l).closedCount (State.ending { s with ports := ports } l k r e)).cards
  rw [State.heldNails_of_heldBy hheld', hlane] at hopening
  rw [State.slotAt_ending, if_pos rfl] at hrecord
  have hset : State.namedReleaseSet { s with ports := ports } l = _ :=
    State.namedReleaseSet_eq (s := { s with ports := ports }) hheld
  rw [hset] at hopening
  unfold StepEndedBy
  rw [hheld]
  have hstates (x : CardNo) : ((State.openSequence l (s.laneAt l).closedCount
      (State.ending { s with ports := ports } l k r e)).cardAt x).state = (s.cardAt x).state := by
    rw [State.cardAt_congr hcards]
    rfl
  simp only [hstates]
  exact ⟨hrecord.congr_left fun n => rfl, hopening⟩

theorem Course.enterReleasing {c : State} (hc : ∃ ports, c = { s with ports := ports })
    (hports : ∀ m, c.portAt m =
      if m = l ∧ (s.laneAt l).phase = .measuring then { s.portAt m with outstanding := none } else s.portAt m)
    (hunderway : (s.laneAt l).phase.underway = true) (hcanon : s.canonical = true) (hheld : s.heldBy l = some (k, r)) :
    Course s (c.enterReleasing l (VerdictWrite.bare e.verdict none)) e.faults e.aborts
      ∧ StepEndedBy s (c.enterReleasing l (VerdictWrite.bare e.verdict none)) l e.verdict := by
  obtain ⟨hslot, -⟩ := (State.heldBy_eq_some s l k r).mp hheld
  have hentered : c.enterReleasing l (VerdictWrite.bare e.verdict none) =
      State.openSequence l (s.laneAt l).closedCount (c.ending l k r e) := by
    obtain ⟨ports, rfl⟩ := hc
    exact State.enterReleasing_end (s := { s with ports := ports }) hheld
  have hcanon' : (c.ending l k r e).canonical = true := by
    obtain ⟨ports, rfl⟩ := hc
    exact State.canonical_ending (s := { s with ports := ports }) hcanon
  rw [hentered]
  exact ⟨(Course.ending hc hports hunderway hslot).trans (.openSequence hcanon' (by rw [State.laneAt_ending]) _),
    stepEndedBy_ending hc hcanon hheld⟩

/-- A step that is not MEASURING has no START to clear. -/
theorem Course.enterReleasing_same (hmeasuring : (s.laneAt l).phase ≠ .measuring) (hunderway : (s.laneAt l).phase.underway = true)
    (hcanon : s.canonical = true) (hheld : s.heldBy l = some (k, r)) :
    Course s (s.enterReleasing l (VerdictWrite.bare e.verdict none)) e.faults e.aborts
      ∧ StepEndedBy s (s.enterReleasing l (VerdictWrite.bare e.verdict none)) l e.verdict :=
  Course.enterReleasing ⟨s.ports, rfl⟩ (fun _ => (if_neg fun hand => hmeasuring hand.2).symm) hunderway hcanon hheld

theorem State.portAt_clearOutstanding (s : State) (l m : LaneNo) :
    (s.clearOutstanding l).portAt m = if m = l then { s.portAt m with outstanding := none } else s.portAt m := by
  refine (State.portAt_setPort s l _ m).trans ?_
  by_cases hm : m = l <;> simp [hm]

theorem Course.enterReleasing_cleared (hmeasuring : (s.laneAt l).phase = .measuring) (hcanon : s.canonical = true)
    (hheld : s.heldBy l = some (k, r)) :
    Course s ((s.clearOutstanding l).enterReleasing l (VerdictWrite.bare e.verdict none)) e.faults e.aborts
      ∧ StepEndedBy s ((s.clearOutstanding l).enterReleasing l (VerdictWrite.bare e.verdict none)) l e.verdict :=
  Course.enterReleasing ⟨_, rfl⟩ (fun m => by rw [State.portAt_clearOutstanding]; simp [hmeasuring])
      (by rw [hmeasuring]; rfl) hcanon hheld

/-! ## Notices and orders (R124, R126) -/

/-- A lane has taken an order or a notice: an end decided at once has ended its step, a CLOSING lane with its command in flight
has a pending end, and any other lane is as it was. -/
def EndTaken (s t : State) (l : LaneNo) (e : PendingEnd) : Prop :=
  if (s.laneAt l).endsAtOnce then StepEndedBy s t l e.verdict
  else (∀ k ∈ (s.laneAt l).heldSlot, t.slotAt k = s.slotAt k)
    ∧ t.laneAt l =
      if (s.laneAt l).phase = .closing then { s.laneAt l with pendingEnd := some ((s.laneAt l).pendingEnd.getD e) }
      else s.laneAt l

/-- The counts of an end that a lane takes. -/
def Lane.counted (v : Lane) (n : Nat) : Nat := if v.endsAtOnce then n else 0

/-- A lane that takes an order or a notice, with the course of that event. -/
theorem State.endLaneWith_taken (hcanon : s.canonical = true)
    (hholds : (s.laneAt l).phase ≠ .idle → ∃ k r, s.heldBy l = some (k, r)) (e : PendingEnd) :
    EndTaken s (s.endLaneWith l e) l e
      ∧ Course s (s.endLaneWith l e) ((s.laneAt l).counted e.faults) ((s.laneAt l).counted e.aborts) := by
  have hkept (honce : (s.laneAt l).endsAtOnce = false) (hclosing : (s.laneAt l).phase ≠ .closing) :
      EndTaken s s l e ∧ Course s s ((s.laneAt l).counted e.faults) ((s.laneAt l).counted e.aborts) := by
    unfold EndTaken Lane.counted
    rw [honce, if_neg hclosing]
    exact ⟨⟨fun _ _ => rfl, rfl⟩, Course.refl s⟩
  have hended {t : State} (honce : (s.laneAt l).endsAtOnce = true)
      (h : Course s t e.faults e.aborts ∧ StepEndedBy s t l e.verdict) :
      EndTaken s t l e ∧ Course s t ((s.laneAt l).counted e.faults) ((s.laneAt l).counted e.aborts) := by
    unfold EndTaken Lane.counted
    rw [honce]
    exact h.symm
  unfold State.endLaneWith
  dsimp only
  cases hphase : (s.laneAt l).phase with
  | idle => exact hkept (by simp [Lane.endsAtOnce, hphase, LanePhase.underway]) (by simp [hphase])
  | releasing => exact hkept (by simp [Lane.endsAtOnce, hphase, LanePhase.underway]) (by simp [hphase])
  | settling =>
    obtain ⟨k, r, hheld⟩ := hholds (by simp [hphase])
    exact hended (by simp [Lane.endsAtOnce, hphase, LanePhase.underway])
      (Course.enterReleasing_same (by simp [hphase]) (by simp [hphase, LanePhase.underway]) hcanon hheld)
  | measuring =>
    obtain ⟨k, r, hheld⟩ := hholds (by simp [hphase])
    exact hended (by simp [Lane.endsAtOnce, hphase, LanePhase.underway]) (Course.enterReleasing_cleared hphase hcanon hheld)
  | closing =>
    dsimp only
    by_cases hflight : (s.laneAt l).linkRequest = .inFlight
    · have honce : (s.laneAt l).endsAtOnce = false := by simp [Lane.endsAtOnce, hphase, hflight]
      rw [if_pos hflight]
      unfold EndTaken Lane.counted
      simp only [honce, Bool.false_eq_true, if_false, if_pos hphase]
      split
      next x hpending =>
        refine ⟨⟨fun _ _ => rfl, ?_⟩, Course.refl s⟩
        rw [hpending, Option.getD_some, ← hpending]
      next hpending =>
        refine ⟨⟨fun _ _ => rfl, (State.laneAt_setLane_self _ _ _).trans ?_⟩, Course.setLane hphase.symm rfl⟩
        rw [hpending, Option.getD_none, hphase]
    · obtain ⟨k, r, hheld⟩ := hholds (by simp [hphase])
      rw [if_neg hflight]
      exact hended (by simp [Lane.endsAtOnce, hphase, hflight, LanePhase.underway])
        (Course.enterReleasing_same (by simp [hphase]) (by simp [hphase, LanePhase.underway]) hcanon hheld)

/-! ## A failed command (R114, R122) -/

theorem State.heldBy_setLane {v : Lane} (hv : v.heldSlot = (s.laneAt l).heldSlot) (m : LaneNo) :
    (s.setLane l v).heldBy m = s.heldBy m := by
  have hslot : ((s.setLane l v).laneAt m).heldSlot = (s.laneAt m).heldSlot := by
    by_cases hm : m = l
    · rw [hm, State.laneAt_setLane_self, hv]
    · rw [State.laneAt_setLane, if_neg hm]
  unfold State.heldBy
  rw [hslot]
  rfl

/-- A completed OPEN, as a course. -/
theorem State.openCompleted_goesOn (hcanon : s.canonical = true) (hphase : (s.laneAt l).phase = .releasing)
    (hheld : s.heldBy l = some (k, r)) :
    Course s (s.openCompleted l) 0 0 ∧ SlotHeldOrResolved s (s.openCompleted l) l k (s.slotAt k).runMark r
      ∧ OpeningFrom (s.openCompleted l) l r.program.nails.entries ((s.laneAt l).openPosition - 1) (s.laneAt l) := by
  unfold State.openCompleted
  generalize hn : (s.laneAt l).openPosition - 1 = n
  generalize hv : ({ s.laneAt l with linkRequest := .none, openPosition := n } : Lane) = v
  have hlane : (s.setLane l v).laneAt l = v := State.laneAt_setLane_self _ _ _
  have hvslot : v.heldSlot = (s.laneAt l).heldSlot := by rw [← hv]
  have hvphase : v.phase = (s.laneAt l).phase := by rw [← hv]
  have hcanon' : (s.setLane l v).canonical = true := (State.canonical_setLane s l v).trans hcanon
  have hphase' : ((s.setLane l v).laneAt l).phase = .releasing := by rw [hlane, hvphase]; exact hphase
  have hheld' : (s.setLane l v).heldBy l = some (k, r) := (State.heldBy_setLane hvslot l).trans hheld
  obtain ⟨hslot, hr⟩ := (State.heldBy_eq_some _ l k r).mp hheld'
  have hopening := OpeningFrom.openSequence (s := s.setLane l v) (l := l) (by rw [hlane, ← hv]) n
  rw [State.heldNails_of_heldBy hheld', hlane] at hopening
  refine ⟨(Course.setLane hvphase hvslot).trans (.openSequence hcanon' hphase' n),
    (SlotHeldOrResolved.openSequence hcanon' hphase' hslot hr n).congr_left fun _ => rfl, ?_⟩
  subst hv
  exact hopening

theorem State.laneCommandFailed_of_closing (hphase : (s.laneAt l).phase = .closing) :
    s.laneCommandFailed l = (s.setLane l { s.laneAt l with linkRequest := .none }).enterReleasing l
      (VerdictWrite.bare ((s.laneAt l).pendingEnd.getD .matrixFault).verdict none) := by
  unfold State.laneCommandFailed
  dsimp only
  split
  next => rw [PendingEnd.verdict_getD]
  next h => exact nomatch hphase.symm.trans h
  next h _ => exact absurd hphase h

theorem State.laneCommandFailed_closing (hcanon : s.canonical = true) (hphase : (s.laneAt l).phase = .closing)
    (hheld : s.heldBy l = some (k, r)) (he : e = (s.laneAt l).pendingEnd.getD .matrixFault) :
    Course s (s.laneCommandFailed l) e.faults e.aborts ∧ StepEndedBy s (s.laneCommandFailed l) l e.verdict := by
  generalize hv : ({ s.laneAt l with linkRequest := .none } : Lane) = v
  have hlane : (s.setLane l v).laneAt l = v := State.laneAt_setLane_self _ _ _
  have hvslot : v.heldSlot = (s.laneAt l).heldSlot := by rw [← hv]
  have hvphase : v.phase = (s.laneAt l).phase := by rw [← hv]
  have hfailed : s.laneCommandFailed l = (s.setLane l v).enterReleasing l (VerdictWrite.bare e.verdict none) := by
    rw [State.laneCommandFailed_of_closing hphase, ← he, ← hv]
  have hphase' : ((s.setLane l v).laneAt l).phase = .closing := by rw [hlane, hvphase]; exact hphase
  have hheld' := State.heldBy_setLane (s := s) hvslot l
  obtain ⟨hcourse, hended⟩ := Course.enterReleasing_same (s := s.setLane l v) (l := l) (e := e) (by rw [hphase']; decide)
    (by rw [hphase']; rfl) ((State.canonical_setLane s l v).trans hcanon) (hheld'.trans hheld)
  rw [hfailed]
  have hboth := (Course.setLane hvphase hvslot).trans hcourse
  rw [Nat.zero_add, Nat.zero_add] at hboth
  refine ⟨hboth, hended.congr_left hheld' (fun _ => rfl) rfl rfl ⟨(s.laneAt l).phase, .none, (s.laneAt l).pendingEnd,
    (s.laneAt l).releaseSet, (s.laneAt l).openPosition, (s.laneAt l).timer, ?_⟩⟩
  rw [hlane, ← hv]

theorem State.laneCommandFailed_releasing (hcanon : s.canonical = true) (hphase : (s.laneAt l).phase = .releasing)
    (hheld : s.heldBy l = some (k, r)) :
    Course s (s.laneCommandFailed l) 0 0 ∧ SlotHeldOrResolved s (s.laneCommandFailed l) l k (s.slotAt k).runMark r
      ∧ OpeningFrom (s.laneCommandFailed l) l r.program.nails.entries ((s.laneAt l).openPosition - 1) (s.laneAt l) := by
  have hfailed : s.laneCommandFailed l = s.openCompleted l := by
    unfold State.laneCommandFailed
    dsimp only
    rw [hphase]
  rw [hfailed]
  exact State.openCompleted_goesOn hcanon hphase hheld

theorem Course.laneCommandFailed_other (hclosing : (s.laneAt l).phase ≠ .closing) (hreleasing : (s.laneAt l).phase ≠ .releasing) :
    Course s (s.laneCommandFailed l) 0 0 := by
  have hfailed : s.laneCommandFailed l = s.setLane l { s.laneAt l with linkRequest := .none } := by
    unfold State.laneCommandFailed
    dsimp only
    cases hphase : (s.laneAt l).phase with
    | closing => exact absurd hphase hclosing
    | releasing => exact absurd hphase hreleasing
    | idle | settling | measuring => rfl
  rw [hfailed]
  exact .setLane rfl rfl

end

end Sys2Proof.Machine
end

section
/-! CERTIFICATE. An acknowledged CLOSE or OPEN: the lane goes on, and at most one waiting request is granted. -/

namespace Sys2Proof.Machine

/-! ## Requests to ONLINE cards -/

section
variable {s t u : State} {l : LaneNo} {k : Slot} {r : StepRecord}

theorem State.nailOnline_iff (s : State) (n : NailNo) : s.nailOnline n = true ↔ (s.cardAt (cardOf n)).state = .online := by
  unfold State.nailOnline
  exact decide_eq_true_iff

theorem State.not_doomed_of_grantable (h : s.grantable = true) (m : LaneNo) : ¬ s.doomed m := by
  rintro ⟨hwaits, hoffline⟩
  have hm := List.all_eq_true.mp h m (mem_allLanes m)
  rw [Bool.or_eq_true, decide_eq_true_eq] at hm
  refine hm.elim (fun hno => hno hwaits) fun honline => hoffline ?_
  cases hc : s.laneCommand m with
  | none => rw [hc] at honline; cases honline
  | some c =>
    rw [hc] at honline
    exact ⟨c, hc, of_decide_eq_true honline⟩

/-- An event at a lane leaves the requests of the others grantable. -/
theorem State.not_doomed_of_other (h : s.grantable = true) (hlanes : OtherLanesSame s u l)
    (hnails : ∀ m, m ≠ l → (s.laneAt m).linkRequest = .waiting → u.heldNails m = s.heldNails m) (hcards : u.cards = s.cards)
    (hl : ¬ u.doomed l) (m : LaneNo) : ¬ u.doomed m := by
  intro hdoomed
  by_cases hm : m = l
  · exact hl (hm ▸ hdoomed)
  · have hlane := hlanes m hm
    exact s.not_doomed_of_grantable h m (State.doomed_eq hlane (hnails m hm (hlane ▸ hdoomed.1)) hcards hdoomed)

theorem State.not_doomed_of_touched (h : s.grantable = true) (htouched : Touched l s u) (hl : ¬ u.doomed l) (m : LaneNo) :
    ¬ u.doomed m :=
  State.not_doomed_of_other h htouched.frame.lanes (fun m _ _ => htouched.heldNails m) htouched.frame.cards hl m

theorem State.not_doomed_of_resting (h : (u.laneAt l).linkRequest ≠ .waiting) : ¬ u.doomed l := fun hdoomed => h hdoomed.1

theorem State.waits_four_of_none (h : s.census = none) : s.waits 4 = false := by
  simp [State.waits, h, laneOfRank]

/-- What a grant leaves as it was, when no census is in progress. -/
theorem Granted.keeps {link : Link} {lanes : Vector Lane 4} (h : Granted u t) (hu : u = { s with lanes := lanes, link := link })
    (hcensus : s.census = none) :
    SameTables s t ∧ t.ports = s.ports ∧ t.cards = s.cards ∧ t.census = s.census ∧ t.run = s.run ∧ t.exam = s.exam
      ∧ t.latches = s.latches ∧ SameSettings s t ∧ SamePort s t := by
  have hsame := h.census (State.waits_four_of_none (by rw [hu]; exact hcensus))
  obtain ⟨_, _, _, rfl⟩ := h.rest
  subst hu
  exact ⟨⟨rfl, rfl⟩, rfl, rfl, hsame, rfl, rfl, rfl, ⟨rfl, rfl, rfl, rfl, rfl⟩, rfl, rfl, rfl⟩

theorem State.laneCommand_of_request (hlane : ∃ request, t.laneAt l = { u.laneAt l with linkRequest := request })
    (hsteps : t.steps = u.steps) : t.laneCommand l = u.laneCommand l := by
  obtain ⟨request, hlane⟩ := hlane
  have hnails : t.heldNails l = u.heldNails l := by
    rw [State.heldNails_eq, State.heldNails_eq, hlane]
    simp only [State.recordAt_congr hsteps]
  unfold State.laneCommand
  rw [hnails, hlane]

theorem State.laneCommand_of_closing (hheld : s.heldBy l = some (k, r)) (hphase : (s.laneAt l).phase = .closing) :
    s.laneCommand l = (r.program.nails.entries[(s.laneAt l).closedCount]?).map
      (fun e => .close (cardOf e.2) (crosspointOf e.2) l e.1) := by
  unfold State.laneCommand
  rw [State.heldNails_of_heldBy hheld]
  dsimp only
  rw [hphase]

theorem State.laneCommand_of_releasing (hheld : s.heldBy l = some (k, r)) (hphase : (s.laneAt l).phase = .releasing) :
    s.laneCommand l = (r.program.nails.entries[(s.laneAt l).openPosition - 1]?).map
      (fun e => .openOne (cardOf e.2) (crosspointOf e.2) l e.1) := by
  unfold State.laneCommand
  rw [State.heldNails_of_heldBy hheld]
  dsimp only
  rw [hphase]

/-! ## An acknowledged command of a lane (R161) -/

theorem exec_acknowledgement_lane {f : InFlight} (hflight : s.link.inFlight = some f) (hrank : f.requester = rankOfLane l)
    (hidentify : f.command.isIdentify = false) :
    exec (.acknowledgement f.command.card) s = .next (s.freeLink.laneCommandOk l).arbitrate := by
  show Host.Outcome.next (s.acknowledged f.command.card) = _
  unfold State.acknowledged
  rw [hflight]
  dsimp only
  rw [if_pos ⟨hidentify, rfl⟩, hrank, laneOfRank_rankOfLane]

/-- A lane that goes on with a command to an ONLINE card. -/
theorem State.lane_requests {v : Lane} {c : LinkCommand} (hgrantable : s.grantable = true) (hcensus : s.census = none)
    (hslot : v.heldSlot = (s.laneAt l).heldSlot) (hwaiting : v.linkRequest = .waiting)
    (hc : (s.freeLink.setLane l v).laneCommand l = some c) (honline : (s.cardAt c.card).state = .online)
    (ht : t = (s.freeLink.setLane l v).arbitrate) :
    (∃ request, (request = .waiting ∨ request = .inFlight) ∧ t.laneAt l = { v with linkRequest := request })
      ∧ t.laneCommand l = some c ∧ (∀ g, t.link.inFlight = some g → g.requester = rankOfLane l → g.command = c)
      ∧ t.link.inFlight ≠ none ∧ OtherLanesSameButGrant s t l ∧ SameTables s t ∧ t.ports = s.ports ∧ t.cards = s.cards
      ∧ t.census = s.census ∧ t.run = s.run ∧ t.exam = s.exam ∧ t.latches = s.latches ∧ SameSettings s t
      ∧ SamePort s t := by
  have hlane : (s.freeLink.setLane l v).laneAt l = v := State.laneAt_setLane_self _ _ _
  have hrequest : ((s.freeLink.setLane l v).laneAt l).linkRequest = .waiting := by rw [hlane, hwaiting]
  have htouched : Touched l s.freeLink (s.freeLink.setLane l v) := .setLane s.freeLink hslot
  have hgrant : Granted (s.freeLink.setLane l v) t :=
    ht ▸ State.arbitrate_granted (State.not_doomed_of_touched (s := s.freeLink) hgrantable htouched
      fun hdoomed => hdoomed.2 ⟨c, hc, honline⟩)
  obtain ⟨request, hor, hgranted⟩ := hgrant.request hrequest
  have hkeeps := hgrant.keeps (s := s) rfl hcensus
  obtain ⟨hsteps, -⟩ := hkeeps.1
  refine ⟨⟨request, hor, by rw [hgranted, hlane]⟩, ?_, fun g hg hrank => ?_, ?_, ?_, hkeeps⟩
  · exact (State.laneCommand_of_request ⟨request, hgranted⟩ hsteps).trans hc
  · exact (Option.some.inj (hc.symm.trans (hgrant.command g l rfl hg hrank))).symm
  · exact hgrant.served rfl ⟨rankOfLane l, by rw [State.waits_lane, hrequest]; rfl⟩
  · exact hgrant.others htouched.frame.lanes

end

/-! ## The acknowledgement of a CLOSE (R113) -/

section
variable {s t : State} {l : LaneNo} {k : Slot} {r : StepRecord}

/-- A lane's closed count raised, its command completed. -/
def State.raised (s : State) (l : LaneNo) : State :=
  s.setLane l { s.laneAt l with linkRequest := .none, closedCount := (s.laneAt l).closedCount + 1 }

theorem State.laneAt_raised : (s.raised l).laneAt l =
    { s.laneAt l with linkRequest := .none, closedCount := (s.laneAt l).closedCount + 1 } := State.laneAt_setLane_self _ _ _

theorem State.touched_raised : Touched l s (s.raised l) := .setLane s (by rfl)

theorem State.heldBy_raised (m : LaneNo) : (s.raised l).heldBy m = s.heldBy m := State.heldBy_setLane (by rfl) m

theorem State.closeCompleted_next (hpending : (s.laneAt l).pendingEnd = none) (hheld : s.heldBy l = some (k, r))
    (hnext : (s.laneAt l).closedCount + 1 < r.program.nails.entries.length) :
    s.closeCompleted l =
      s.setLane l { s.laneAt l with linkRequest := .waiting, closedCount := (s.laneAt l).closedCount + 1 } := by
  unfold State.closeCompleted
  dsimp only
  rw [hpending, hheld]
  dsimp only
  rw [if_pos hnext]
  exact State.setLane_setLane _ _ _ _

theorem State.closeCompleted_last (hpending : (s.laneAt l).pendingEnd = none) (hheld : s.heldBy l = some (k, r))
    (hlast : (s.laneAt l).closedCount + 1 = r.program.nails.entries.length) :
    s.closeCompleted l = (s.raised l).startSettle l r.program.timing.aperture
      (firstSettle r.program.timing (s.largestOperate r.program.nails) s.tick) := by
  unfold State.closeCompleted State.raised
  dsimp only
  generalize (s.laneAt l).pendingEnd = pending at hpending
  subst hpending
  rw [hheld]
  dsimp only
  rw [if_neg (by omega)]

theorem State.closeCompleted_ends {e : PendingEnd} (hpending : (s.laneAt l).pendingEnd = some e) :
    s.closeCompleted l = (s.raised l).enterReleasing l (VerdictWrite.bare e.verdict none) := by
  unfold State.closeCompleted State.raised
  dsimp only
  rw [hpending]

theorem State.laneCommandOk_of_closing (h : (s.laneAt l).phase = .closing) : s.laneCommandOk l = s.closeCompleted l := by
  unfold State.laneCommandOk
  rw [h]

theorem State.laneCommandOk_of_releasing (h : (s.laneAt l).phase = .releasing) : s.laneCommandOk l = s.openCompleted l := by
  unfold State.laneCommandOk
  rw [h]

theorem State.operateTime_of_descriptor {c : CardNo} {d : Descriptor} (h : (s.cardAt c).descriptor = some d) :
    s.operateTime c = d.operate.toNat := by
  unfold State.operateTime
  rw [h]
  rfl

theorem State.largestOperate_attained (s : State) (nails : NailList) :
    s.largestOperate nails = 0
      ∨ ∃ n ∈ nails.toList, ∃ d, (s.cardAt (cardOf n)).descriptor = some d ∧ s.largestOperate nails = d.operate.toNat := by
  refine or_iff_not_imp_left.mpr fun hpos => ?_
  obtain ⟨n, hn, heq⟩ := (s.largestOperate_spec nails).2.resolve_left hpos
  cases hd : (s.cardAt (cardOf n)).descriptor with
  | some d => exact ⟨n, hn, d, hd, heq.trans (State.operateTime_of_descriptor hd)⟩
  | none =>
    have hzero : s.operateTime (cardOf n) = 0 := by
      unfold State.operateTime
      rw [hd]
      rfl
    exact absurd (heq.trans hzero) hpos

/-- The lane of an acknowledged CLOSE computes its settle. -/
theorem closeAcknowledged_settles {settle : Nat × Bool} (hpending : (s.laneAt l).pendingEnd = none)
    (hheld : s.heldBy l = some (k, r)) (hlast : (s.laneAt l).closedCount + 1 = r.program.nails.entries.length)
    (hsettle : settle = firstSettle r.program.timing (s.largestOperate r.program.nails) s.tick) (hruns : settle.1 ≠ 0)
    (hcensus : s.census = none) (hgrantable : s.grantable = true) (ht : t = (s.freeLink.closeCompleted l).arbitrate) :
    t.laneAt l =
        { s.laneAt l with
          closedCount := (s.laneAt l).closedCount + 1, linkRequest := .none, phase := .settling
          timer := some (.settle settle.1) }
      ∧ t.slotAt k = { s.slotAt k with record := some { r with stats := { r.stats with settleClamped := settle.2 } } }
      ∧ OtherSlotsSame s t k ∧ t.nails = s.nails ∧ OtherLanesSameButGrant s t l ∧ t.ports = s.ports
      ∧ t.cards = s.cards ∧ t.census = s.census ∧ t.run = s.run ∧ t.exam = s.exam ∧ t.latches = s.latches
      ∧ SameSettings s t ∧ SamePort s t := by
  have hraised : (s.freeLink.raised l).heldBy l = some (k, r) := (State.heldBy_raised l).trans hheld
  have hcompleted : s.freeLink.closeCompleted l = (s.freeLink.raised l).startSettle l r.program.timing.aperture settle :=
    hsettle ▸ State.closeCompleted_last (s := s.freeLink) hpending hheld hlast
  rw [State.startSettle_runs hraised _ hruns, State.laneAt_raised] at hcompleted
  have hflagged : Touched l s.freeLink ((s.freeLink.raised l).flagged k r settle.2) :=
    State.touched_raised.trans (State.writeClamped_of_heldBy hraised settle.2 ▸ Touched.writeClamped l
        (s.freeLink.raised l) settle.2)
  have htouched : Touched l s.freeLink (s.freeLink.closeCompleted l) := by
    rw [hcompleted]
    exact hflagged.trans (.setLane _ (by rw [hflagged.slot]))
  have hlane : (s.freeLink.closeCompleted l).laneAt l =
      { s.laneAt l with
        closedCount := (s.laneAt l).closedCount + 1, linkRequest := .none, phase := .settling
        timer := some (.settle settle.1) } := by
    rw [hcompleted]
    exact State.laneAt_setLane_self _ _ _
  have hrequest : ((s.freeLink.closeCompleted l).laneAt l).linkRequest ≠ .waiting := by
    rw [hlane]
    exact nofun
  have hgrant : Granted (s.freeLink.closeCompleted l) t :=
    ht ▸ State.arbitrate_granted (State.not_doomed_of_touched (s := s.freeLink) hgrantable htouched
      (State.not_doomed_of_resting hrequest))
  have hothers := hgrant.others htouched.frame.lanes
  have hself := (hgrant.other hrequest).trans hlane
  have hcensus' := hgrant.census (State.waits_four_of_none (htouched.frame.census.trans hcensus))
  rw [htouched.frame.census] at hcensus'
  obtain ⟨_, _, _, rfl⟩ := hgrant.rest
  rw [hcompleted] at hself hothers hcensus' ⊢
  exact ⟨hself, State.slotAt_setSlot_self _ _ _, fun j hj => (State.slotAt_setSlot _ _ _ _).trans (if_neg hj), rfl,
      hothers, rfl, rfl,
    hcensus', rfl, rfl, rfl, ⟨rfl, rfl, rfl, rfl, rfl⟩, rfl, rfl, rfl⟩

/-- The lane of an acknowledged CLOSE ends its step by its pending end. -/
theorem closeAcknowledged_ends {e : PendingEnd} {bus : Role} {nail : NailNo} (hpending : (s.laneAt l).pendingEnd = some e)
    (hheld : s.heldBy l = some (k, r)) (hentry : r.program.nails.entries[(s.laneAt l).closedCount]? = some (bus, nail))
    (honline : s.nailOnline nail = true) (hcensus : s.census = none) (hgrantable : s.grantable = true)
    (ht : t = (s.freeLink.closeCompleted l).arbitrate) :
    StepEnded s t l ((s.laneAt l).closedCount + 1) k r (VerdictWrite.bare e.verdict none) ∧ t.ports = s.ports := by
  have hraised : (s.freeLink.raised l).heldBy l = some (k, r) := (State.heldBy_raised l).trans hheld
  have hcount : ((s.freeLink.raised l).laneAt l).closedCount = (s.laneAt l).closedCount + 1 := by
    rw [State.laneAt_raised]
    rfl
  have hcompleted := State.closeCompleted_ends (s := s.freeLink) hpending
  have hcommand := State.laneCommand_enterReleasing (w := VerdictWrite.bare e.verdict none) hraised hcount hentry honline
  have hentered := State.enterReleasing_requests (VerdictWrite.bare e.verdict none) hraised hcount hentry honline
  have htouched : Touched l s.freeLink (s.freeLink.closeCompleted l) := by
    have hrecorded : Touched l s.freeLink ((s.freeLink.raised l).recordVerdict k (VerdictWrite.bare e.verdict none)) :=
      State.touched_raised.trans (.recordVerdict _ _ _ _)
    rw [hcompleted, hentered]
    exact hrecorded.trans (.setLane _ (by rw [hrecorded.slot, State.laneAt_raised]))
  have hcard : ((s.freeLink.closeCompleted l).cardAt (cardOf nail)).state = .online := by
    rw [State.cardAt_congr htouched.frame.cards]
    exact (s.nailOnline_iff nail).mp honline
  have hgrant : Granted ((s.freeLink.raised l).enterReleasing l (VerdictWrite.bare e.verdict none)) t := by
    rw [← hcompleted] at hcommand ⊢
    exact ht ▸ State.arbitrate_granted (State.not_doomed_of_touched (s := s.freeLink) hgrantable htouched
      fun hdoomed => hdoomed.2 ⟨_, hcommand, hcard⟩)
  have hcensus' := hgrant.census (State.waits_four_of_none (hcompleted ▸ htouched.frame.census.trans hcensus))
  have hports := State.ports_enterReleasing (s.freeLink.raised l) l (VerdictWrite.bare e.verdict none)
  refine ⟨.of_prepared (request := .none) ⟨s.ports, s.freeLink.link, rfl⟩
    (.of_requested hraised hcount hentry honline hgrant (hcensus'.trans (hcompleted ▸ htouched.frame.census))), ?_⟩
  obtain ⟨_, _, _, rfl⟩ := hgrant.rest
  exact hports

end

/-- Settles O36. -/
theorem closeAcknowledgedAdvancesLane : Obligations.CloseAcknowledgedAdvancesLane := by
  refine ⟨⟨rfl, rfl⟩, fun s nails => ⟨fun n hn d hd => ?_, s.largestOperate_attained nails⟩,
    fun s l f k r hflight hrank hidentify hphase hrequest hheld hcensus hgrantable => ?_⟩
  · rw [← State.operateTime_of_descriptor hd]
    exact (s.largestOperate_spec nails).1 n hn
  have hstep := exec_acknowledgement_lane hflight hrank hidentify
  rw [State.laneCommandOk_of_closing (s := s.freeLink) hphase] at hstep
  refine ⟨fun bus nail hpending hentry honline => ?_, fun hpending hlast hruns => ?_,
      fun e bus nail hpending hentry honline => ?_⟩
  · rw [State.closeCompleted_next (s := s.freeLink) hpending hheld (List.getElem?_eq_some_iff.mp hentry).1] at hstep
    have hlane := State.laneAt_setLane_self s.freeLink l
      { s.laneAt l with linkRequest := .waiting, closedCount := (s.laneAt l).closedCount + 1 }
    refine ⟨_, hstep, State.lane_requests (c := .close (cardOf nail) (crosspointOf nail) l bus) hgrantable hcensus
        (by rfl) (by rfl)
      ?_ ((s.nailOnline_iff nail).mp honline) rfl⟩
    refine (State.laneCommand_of_closing ((State.heldBy_setLane (s := s.freeLink) (by rfl) l).trans hheld) ?_).trans ?_
    · exact (congrArg Lane.phase hlane).trans hphase
    · refine (congrArg (fun n => Option.map _ r.program.nails.entries[n]?) (congrArg Lane.closedCount hlane)).trans ?_
      rw [hentry]
      rfl
  · exact ⟨_, hstep, closeAcknowledged_settles hpending hheld hlast rfl hruns hcensus hgrantable rfl⟩
  · exact ⟨_, hstep, closeAcknowledged_ends hpending hheld hentry honline hcensus hgrantable rfl⟩

end Sys2Proof.Machine
end

section
/-! CERTIFICATE. An acknowledged OPEN: the OPEN sequence goes on to the next nail on an ONLINE card, to the release wait, or to
the end of the step. -/

namespace Sys2Proof.Machine

/-! ## Release waits (R54) -/

theorem ceilDiv_mono {a b n : Nat} (hn : 0 < n) (h : a ≤ b) : ceilDiv a n ≤ ceilDiv b n :=
  (ceilDiv_le_iff hn a _).mpr (h.trans (le_ceilDiv_mul hn b))

theorem microTicks_mono {a b T : Nat} (hT : 0 < T) (h : a ≤ b) : microTicks a T ≤ microTicks b T :=
  ceilDiv_mono hT (Nat.mul_le_mul_right _ h)

theorem le_largestTime {times : List Nat} {u : Nat} (h : u ∈ times) : u ≤ largestTime times := (foldl_max_spec times 0).2.1 u h

theorem largestTime_mem {times : List Nat} (h : times ≠ []) : largestTime times ∈ times := by
  rcases (foldl_max_spec times 0).2.2 with hzero | hmem
  · obtain ⟨u, hu⟩ := List.exists_mem_of_ne_nil times h
    have hle := le_largestTime hu
    have hlargest : largestTime times = 0 := hzero
    have hu0 : u = largestTime times := by omega
    exact hu0 ▸ hu
  · exact hmem

theorem releaseWaitTicks_of_nonempty {releases : List Nat} (h : releases ≠ []) (T : Nat) :
    releaseWaitTicks releases T = microTicks (largestTime releases) T := by
  cases releases with
  | nil => exact absurd rfl h
  | cons => rfl

/-! ## The OPEN sequence (R122) -/

section
variable {s t u : State} {l : LaneNo} {k : Slot} {r : StepRecord}

theorem State.openSequence_skips {n : Nat} {bus : Role} {nail : NailNo} (hentry : (s.heldNails l)[n]? = some (bus, nail))
    (hoffline : s.nailOnline nail = false) : State.openSequence l (n + 1) s = State.openSequence l n s := by
  rw [State.openSequence, hentry]
  dsimp only
  rw [hoffline]
  rfl

theorem State.slotAt_startReleaseWait_other {j : Slot} (h : (s.laneAt l).heldSlot ≠ some j) :
    (s.startReleaseWait l).slotAt j = s.slotAt j := by
  rcases s.startReleaseWait_cases l with heq | ⟨wait, -, -, heq⟩ <;> rw [heq]
  · exact State.slotAt_endRelease_other (by rw [State.laneAt_setLane_self]; exact h)
  · rfl

theorem State.slotAt_openSequence_other {j : Slot} (h : (s.laneAt l).heldSlot ≠ some j) (n : Nat) :
    (State.openSequence l n s).slotAt j = s.slotAt j := by
  rcases State.openSequence_cases l n s with heq | ⟨m, _, _, _, _, _, heq⟩ <;> rw [heq]
  · exact State.slotAt_startReleaseWait_other h
  · rfl

/-- A lane's OPEN completed, and its open position moved down. -/
def State.opened (s : State) (l : LaneNo) (p : Nat) : State :=
  s.setLane l { s.laneAt l with linkRequest := .none, openPosition := p }

theorem State.laneAt_opened (p : Nat) : (s.opened l p).laneAt l = { s.laneAt l with linkRequest := .none, openPosition := p } :=
  State.laneAt_setLane_self _ _ _

theorem State.openCompleted_eq {p : Nat} (h : (s.laneAt l).openPosition = p + 1) :
    s.openCompleted l = State.openSequence l p (s.opened l p) := by
  unfold State.openCompleted
  rw [h]
  rfl

theorem State.openCompleted_next {m : Nat} {bus : Role} {nail : NailNo} (hposition : (s.laneAt l).openPosition = m + 1 + 1)
    (hheld : s.heldBy l = some (k, r)) (hentry : r.program.nails.entries[m]? = some (bus, nail))
    (honline : s.nailOnline nail = true) :
    s.openCompleted l = s.setLane l { s.laneAt l with linkRequest := .waiting, openPosition := m + 1 } := by
  have hnails : (s.opened l (m + 1)).heldNails l = r.program.nails.entries :=
    State.heldNails_of_heldBy ((State.heldBy_setLane (by rfl) l).trans hheld)
  rw [State.openCompleted_eq hposition, State.openSequence_requests (s := s.opened l (m + 1))
      (hnails ▸ hentry) honline, State.laneAt_opened]
  exact State.setLane_setLane _ _ _ _

theorem State.openCompleted_waits {wait : Nat} (hposition : (s.laneAt l).openPosition = 0 + 1)
    (hwait : wait = releaseWaitTicks ((s.laneAt l).releaseSet.map s.releaseTime) s.tick) (hne : wait ≠ 0) :
    s.openCompleted l =
      s.setLane l { s.laneAt l with linkRequest := .none, openPosition := 0, timer := some (.releaseWait wait) } := by
  rw [State.openCompleted_eq hposition, State.openSequence]
  unfold State.startReleaseWait
  dsimp only
  have hwait' : releaseWaitTicks (((s.opened l 0).laneAt l).releaseSet.map (s.opened l 0).releaseTime)
      (s.opened l 0).tick = wait := by
    rw [State.laneAt_opened, hwait]
    rfl
  rw [hwait', if_neg hne, State.laneAt_opened, State.laneAt_setLane_self]
  exact (State.setLane_setLane _ _ _ _).trans (State.setLane_setLane _ _ _ _)

/-! ## A release that goes on, and the grant that follows -/

theorem Course.of_granted (h : Granted s t) : Course s t 0 0 := by
  obtain ⟨lanes, link, census, ht⟩ := h.rest
  refine .of_requests (fun m => ?_) (fun m => ?_) h.census ⟨lanes, link, census, s.freeDraws, ht⟩
  · rcases h.lanes m with heq | ⟨-, heq⟩ <;> rw [heq]
  · rcases h.lanes m with heq | ⟨-, heq⟩ <;> rw [heq]

/-- When the other lanes stay in their phases, a lane that becomes IDLE is that lane. -/
theorem someIdled_of_others (h : ∀ m, m ≠ l → (t.laneAt m).phase = (s.laneAt m).phase) : SomeIdled s t = BecameIdle s t l := by
  rw [Bool.eq_iff_iff, someIdled_iff, becameIdle_iff]
  constructor
  · rintro ⟨m, hs, ht⟩
    by_cases hm : m = l
    · exact hm ▸ ⟨hs, ht⟩
    · exact absurd ((h m hm).symm.trans ht) hs
  · exact fun hl => ⟨l, hl⟩

theorem OtherLanesSameButGrant.phase (h : OtherLanesSameButGrant s t l) {m : LaneNo} (hm : m ≠ l) :
    (t.laneAt m).phase = (s.laneAt m).phase := by
  rcases h m hm with heq | ⟨-, heq⟩ <;> rw [heq]

/-- An acknowledged OPEN, whatever the cards of the nails before it. -/
theorem releaseGoneOn_acknowledged {n : Nat} (hcanon : s.canonical = true) (hmatches : s.heldMatches)
    (hphase : (s.laneAt l).phase = .releasing) (hheld : s.heldBy l = some (k, r)) (hcensus : s.census = none)
    (hgrantable : s.grantable = true) (hposition : (s.laneAt l).openPosition = n + 1)
    (ht : t = (s.freeLink.openCompleted l).arbitrate) : ReleaseGoneOn s t l k r n := by
  have hmatched : Matched s := (matched_iff s).mpr hmatches
  have hmatched' : Matched s.freeLink := hmatched.same .of_tables
  have hbusy : (s.laneAt l).phase ≠ .idle := by rw [hphase]; decide
  have hframe := LaneFrame.openCompleted l s.freeLink
  obtain ⟨hslot, -⟩ := (State.heldBy_eq_some s l k r).mp hheld
  obtain ⟨hcourse, hrecord, hopening⟩ := State.openCompleted_goesOn (s := s.freeLink) hcanon hphase hheld
  have hsettled : ¬ (s.freeLink.openCompleted l).doomed l :=
    State.openSequence_settled _ (by rw [State.laneAt_setLane_self]; exact hphase) (by rw [State.laneAt_setLane_self])
  have hnails (m : LaneNo) (hm : m ≠ l) (hwaits : (s.laneAt m).linkRequest = .waiting) :
      (s.freeLink.openCompleted l).heldNails m = s.heldNails m :=
    (LaneWork.openCompleted (s := s.freeLink) hphase).heldNails_other hmatched' hbusy
      (fun hidle => by rw [hmatched.clean m hidle] at hwaits; cases hwaits) hm
  have hgrant : Granted (s.freeLink.openCompleted l) t :=
    ht ▸ State.arbitrate_granted (State.not_doomed_of_other hgrantable hframe.lanes hnails hframe.cards hsettled)
  have hothers : OtherLanesSameButGrant s t l := hgrant.others hframe.lanes
  have hcensus' := hgrant.census (State.waits_four_of_none (hframe.census.trans hcensus))
  have hlast := hcourse.trans (.of_granted hgrant)
  have hrun := hlast.run
  have hexam := hlast.exam
  have hidled : SomeIdled s.freeLink t = BecameIdle s t l := someIdled_of_others fun m hm => hothers.phase hm
  have hopen : OpeningFrom t l r.program.nails.entries n (s.laneAt l) := by
    rw [show (s.freeLink.laneAt l).openPosition = n + 1 from hposition] at hopening
    obtain ⟨_, _, _, hrest⟩ := hgrant.rest
    exact hopening.stable (hgrant.lanes l) (by rw [hrest]) (by rw [hrest])
  have hslots (j : Slot) : t.slotAt j = (s.freeLink.openCompleted l).slotAt j := by
    obtain ⟨_, _, _, hrest⟩ := hgrant.rest
    rw [hrest]
    rfl
  have hother : OtherSlotsSame s t k := fun j hj =>
    (hslots j).trans (State.slotAt_openSequence_other (s := s.freeLink.setLane l _) (by
      rw [State.laneAt_setLane_self]
      exact fun heq => hj (Option.some.inj (heq.symm.trans hslot))) _)
  have hports : (s.freeLink.openCompleted l).ports = s.ports := State.ports_openSequence l _ _
  rw [hidled] at hrun hexam
  refine ⟨hopen, (hrecord.stable (hgrant.lanes l) (hslots k)).congr_left fun _ => rfl, hother, hothers, hlast.frame, ?_, ?_⟩
  · rw [RunControl.countingEnds_zero] at hrun
    by_cases hbecame : BecameIdle s t l = true
    · rw [if_pos hbecame] at hrun ⊢
      rw [hbecame] at hexam
      exact ⟨hexam, hrun⟩
    · rw [if_neg hbecame] at hrun ⊢
      rw [Bool.not_eq_true] at hbecame
      rw [hbecame] at hexam
      exact ⟨hexam, hrun⟩
  · have hsettings := hframe.settings
    have hport := hframe.port
    have hcards := hframe.cards
    rw [hframe.census] at hcensus'
    obtain ⟨_, _, _, rfl⟩ := hgrant.rest
    exact ⟨hports, hcards, hcensus', hsettings, hport⟩

end

/-- Settles O37. -/
theorem openAcknowledgedGoesOn : Obligations.OpenAcknowledgedGoesOn := by
  refine ⟨fun s l f k r p hflight hrank hidentify hphase hrequest hheld hcensus hgrantable hposition => ?_,
    fun s l n bus nail hentry hoffline => State.openSequence_skips hentry hoffline,
    fun releases T hT => ⟨?_, fun u hu => ?_, fun hne => ?_⟩, fun s c d hd => ?_⟩
  · have hstep := exec_acknowledgement_lane hflight hrank hidentify
    rw [State.laneCommandOk_of_releasing (s := s.freeLink) hphase] at hstep
    refine ⟨fun m bus nail hp hentry honline => ?_, fun hp hne => ?_, fun hcanon hmatches =>
      ⟨_, hstep, releaseGoneOn_acknowledged hcanon hmatches hphase hheld hcensus hgrantable hposition rfl⟩⟩
    · subst hp
      rw [State.openCompleted_next (s := s.freeLink) hposition hheld hentry honline] at hstep
      have hlane := State.laneAt_setLane_self s.freeLink l { s.laneAt l with linkRequest := .waiting, openPosition := m + 1 }
      refine ⟨_, hstep, State.lane_requests (c := .openOne (cardOf nail) (crosspointOf nail) l bus) hgrantable hcensus (by rfl)
        (by rfl) ?_ ((s.nailOnline_iff nail).mp honline) rfl⟩
      refine (State.laneCommand_of_releasing ((State.heldBy_setLane (s := s.freeLink) (by rfl) l).trans hheld) ?_).trans ?_
      · exact (congrArg Lane.phase hlane).trans hphase
      · refine (congrArg (fun n => Option.map _ r.program.nails.entries[n - 1]?) (congrArg Lane.openPosition hlane)).trans ?_
        rw [Nat.add_sub_cancel, hentry]
        rfl
    · subst hp
      rw [State.openCompleted_waits (s := s.freeLink) hposition rfl hne] at hstep
      generalize hv : ({ s.freeLink.laneAt l with
          linkRequest := .none, openPosition := 0, timer := some (.releaseWait _) } : Lane)
        = v at hstep
      have hlane : (s.freeLink.setLane l v).laneAt l = v := State.laneAt_setLane_self _ _ _
      have hrequest' : ((s.freeLink.setLane l v).laneAt l).linkRequest ≠ .waiting := by
        rw [hlane, ← hv]
        exact nofun
      have htouched : Touched l s.freeLink (s.freeLink.setLane l v) := .setLane s.freeLink (by rw [← hv])
      have hgrant := State.arbitrate_granted (State.not_doomed_of_touched (s := s.freeLink) hgrantable htouched
        (State.not_doomed_of_resting hrequest'))
      exact ⟨_, hstep, (hgrant.other hrequest').trans (hlane.trans hv.symm), hgrant.others htouched.frame.lanes,
        hgrant.keeps (s := s) rfl hcensus⟩
  · rintro rfl
    rfl
  · rw [releaseWaitTicks_of_nonempty (List.ne_nil_of_mem hu)]
    exact microTicks_mono hT (le_largestTime hu)
  · exact ⟨_, largestTime_mem hne, releaseWaitTicks_of_nonempty hne T⟩
  · unfold State.releaseTime
    rw [hd]
    rfl

end Sys2Proof.Machine
end

section
/-! CERTIFICATE. The arbiter (R159, R160): one grant of a request that can be sent, after failures of requests that cannot. -/

namespace Sys2Proof.Machine

/-! ## One step of the arbiter -/

/-- A lane that is granted in vain: it is the rank last granted, and its command has failed. -/
def State.passedOn (s : State) (m : LaneNo) : State :=
  ({ s with link := { s.link with lastGranted := rankOfLane m } } : State).laneCommandFailed m

section
variable {s t u : State} {l : LaneNo} {k : Slot} {r : StepRecord}

/-- The command in flight for a lane is to an ONLINE card. -/
def SentOnline (s : State) (t : State) : Prop :=
  ∀ g m, s.link.inFlight = none → t.link.inFlight = some g → g.requester = rankOfLane m →
    (s.cardAt g.command.card).state = .online

theorem SentOnline.of_free (h : t.link = s.link) : SentOnline s t := fun g m hfree hg _ => by
  rw [h, hfree] at hg
  cases hg

/-- The command of the lane that is next is not sent. -/
theorem State.grantFrom_passes {m : LaneNo} {last : Fin 5} (hfree : s.link.inFlight = none)
    (hnext : s.nextWaiting last = some (rankOfLane m)) (hdoomed : s.doomed m) (fuel : Nat) :
    State.grantFrom (fuel + 1) last s = State.grantFrom fuel (rankOfLane m) (s.passedOn m) := by
  rw [State.grantFrom, if_neg (by rw [hfree]; decide), hnext]
  dsimp only
  rw [laneOfRank_rankOfLane]
  dsimp only
  cases hc : s.laneCommand m with
  | none => rfl
  | some c => exact if_neg fun hcard => hdoomed.2 ⟨c, hc, hcard⟩

/-- The arbiter rests with one grant or none, or fails the command of the lane that is next and goes on. -/
theorem State.grantFrom_step (last : Fin 5) (s : State) :
    (∃ t, Granted s t ∧ SentOnline s t ∧ ∀ fuel, State.grantFrom (fuel + 1) last s = t)
      ∨ ∃ m, s.link.inFlight = none ∧ s.doomed m
        ∧ ∀ fuel, State.grantFrom (fuel + 1) last s = State.grantFrom fuel (rankOfLane m) (s.passedOn m) := by
  by_cases hbusy : s.link.inFlight.isSome = true
  · refine .inl ⟨s, .refl fun hfree => ?_, .of_free rfl, fun fuel => State.grantFrom_of_busy _ _ hbusy⟩
    rw [hfree] at hbusy
    cases hbusy
  have hfree : s.link.inFlight = none := by simpa using hbusy
  cases hnext : s.nextWaiting last with
  | none =>
    have hnobody := (State.nextWaiting_eq_none s last).mp hnext
    exact .inl ⟨s, .refl fun _ => hnobody, .of_free rfl, fun fuel => State.grantFrom_of_nobody _ _ hnobody⟩
  | some r =>
    obtain ⟨hwaits, -⟩ := State.nextWaiting_eq_some hnext
    cases hrank : laneOfRank r with
    | none =>
      obtain rfl := (laneOfRank_eq_none r).mp hrank
      cases hcensus : s.census with
      | none => rw [State.waits_four_of_none hcensus] at hwaits; cases hwaits
      | some x =>
        refine .inl ⟨_, .census_sends hfree hwaits, fun g m _ hg hm => ?_,
            fun fuel => State.grantFrom_census fuel hfree hnext hcensus⟩
        obtain rfl := Option.some.inj hg
        have hval : (4 : Nat) = m.val := congrArg Fin.val hm
        omega
    | some m =>
      obtain rfl := (laneOfRank_eq_some r m).mp hrank
      have hrequest : (s.laneAt m).linkRequest = .waiting := by simpa using hwaits
      by_cases honline : s.commandOnline m
      · obtain ⟨c, hc, hcard⟩ := honline
        refine .inl ⟨_, .sends hfree hrequest hc, fun g n _ hg _ => ?_,
            fun fuel => State.grantFrom_sends fuel hfree hnext hc hcard⟩
        obtain rfl := Option.some.inj hg
        exact hcard
      · exact .inr ⟨m, hfree, ⟨hrequest, honline⟩, State.grantFrom_passes hfree hnext ⟨hrequest, honline⟩⟩

/-! ## The fuel of the arbiter -/

theorem matched_laneKept : LaneKept Matched where
  same h hs := hs.same (.of_board h)
  resting hidle hs := by rwa [State.setLane_resting (hs.clean _ hidle)]
  tuned h hl hs := hs.of_touched h.touched h.busy hl
  ended h hu hl hs := (hs.of_touched h hu hl).endRelease hu

theorem Matched.passedOn (hs : Matched s) (m : LaneNo) : Matched (s.passedOn m) :=
  matched_laneKept.laneCommandFailed (matched_laneKept.sameTables hs)

theorem State.doomedLanes_passedOn {m : LaneNo} (hs : Matched s) (hm : s.doomed m) :
    (s.passedOn m).doomedLanes.card < s.doomedLanes.card :=
  State.doomedLanes_laneCommandFailed (s := { s with link := { s.link with lastGranted := rankOfLane m } })
    (matched_laneKept.sameTables hs) hm

/-- More fuel than lanes that wait in vain changes nothing. -/
theorem State.grantFrom_fuel {fuel : Nat} (last : Fin 5) (hs : Matched s) (hfuel : s.doomedLanes.card < fuel) :
    State.grantFrom (fuel + 1) last s = State.grantFrom fuel last s := by
  induction fuel generalizing last s with
  | zero => omega
  | succ fuel ih =>
    rcases State.grantFrom_step last s with ⟨t, -, -, heq⟩ | ⟨m, -, hdoomed, heq⟩
    · rw [heq, heq]
    · have hless := State.doomedLanes_passedOn hs hdoomed
      rw [heq, heq, ih _ (hs.passedOn m) (by omega)]

/-- The next lane's command is not sent, and the arbiter goes on from its rank. -/
theorem State.arbitrate_passes {m : LaneNo} (hs : Matched s) (hfree : s.link.inFlight = none)
    (hnext : s.nextWaiting s.link.lastGranted = some (rankOfLane m)) (hdoomed : s.doomed m) :
    s.arbitrate = (s.passedOn m).arbitrate := by
  have hless := State.doomedLanes_passedOn hs hdoomed
  have hcard := s.doomedLanes_card_le
  have hlast : (s.passedOn m).link.lastGranted = rankOfLane m := by
    unfold State.passedOn
    rw [(LaneFrame.laneCommandFailed m _).link]
  unfold State.arbitrate
  rw [hlast, State.grantFrom_fuel (fuel := 4) _ (hs.passedOn m) (by omega)]
  exact State.grantFrom_passes hfree hnext hdoomed 4

theorem State.grantFrom_sentOnline (fuel : Nat) (last : Fin 5) (s : State) : SentOnline s (State.grantFrom fuel last s) := by
  induction fuel generalizing last s with
  | zero => exact .of_free rfl
  | succ fuel ih =>
    rcases State.grantFrom_step last s with ⟨t, -, hsent, heq⟩ | ⟨m, hfree, -, heq⟩
    · rw [heq]; exact hsent
    · have hframe := LaneFrame.laneCommandFailed m { s with link := { s.link with lastGranted := rankOfLane m } }
      rw [heq]
      intro g n _ hg hn
      have hcard := ih (rankOfLane m) (s.passedOn m) g n (by unfold State.passedOn; rw [hframe.link]; exact hfree) hg hn
      unfold State.passedOn at hcard
      rwa [State.cardAt_congr hframe.cards] at hcard

end

theorem State.waits_four_iff (s : State) : s.waits 4 = true ↔ ∃ x, s.census = some x ∧ x.request = .waiting := by
  cases hc : s.census with
  | none => simp [State.waits_four_of_none hc]
  | some x => simp [State.waits, hc, laneOfRank]

/-- Settles O35. -/
theorem grantGoesToNextWaitingRank : Obligations.GrantGoesToNextWaitingRank := by
  refine ⟨fun l => ⟨rfl, rfl⟩, fun n => ⟨rfl, ?_⟩, fun s => ⟨fun l k r => State.heldBy_eq_some s l k r, s.nailOnline_iff,
    fun l => ⟨rfl, by rw [State.waits_lane, decide_eq_true_eq]⟩, s.waits_four_iff,
    fun l k r hheld => ⟨State.laneCommand_of_closing hheld, State.laneCommand_of_releasing hheld⟩, fun hbusy => ?_,
        fun hnobody => ?_,
    fun hsome => ?_, fun l c hfree hnext hc => ⟨fun honline => ?_, fun hoffline hmatches => ?_⟩, fun l k r hcanon hheld =>
      ⟨fun hphase => ?_, fun hphase => ?_⟩, fun x hfree hnext hx => ?_, fun f l hfree hf hrank => ?_⟩⟩
  · show (byteOf (n.val % 256)).toNat = n.val % 256
    exact byteOf_toNat (Nat.mod_lt _ (by decide))
  · exact State.grantFrom_of_busy _ _ (Option.isSome_iff_ne_none.mpr hbusy)
  · exact State.grantFrom_of_nobody _ _ hnobody
  · obtain ⟨r, hr⟩ := hsome
    cases hnext : s.nextWaiting s.link.lastGranted with
    | none => rw [(State.nextWaiting_eq_none s _).mp hnext r] at hr; cases hr
    | some x => exact ⟨x, (s.servedNext_iff x).mpr hnext⟩
  · exact State.grantFrom_sends 4 hfree ((s.servedNext_iff _).mp hnext) hc honline
  · have hwaits : (s.laneAt l).linkRequest = .waiting := by simpa using hnext.1
    refine State.arbitrate_passes ((matched_iff s).mpr hmatches) hfree ((s.servedNext_iff _).mp hnext) ⟨hwaits, ?_⟩
    rintro ⟨d, hd, honline⟩
    rw [hc] at hd
    cases hd
    exact hoffline honline
  · rw [PendingEnd.verdict_getD]
    exact ⟨(State.laneCommandFailed_closing hcanon hphase hheld rfl).2, (LaneFrame.laneCommandFailed l s).lanes⟩
  · obtain ⟨-, hrecord, hopening⟩ := State.laneCommandFailed_releasing hcanon hphase hheld
    exact ⟨hrecord, hopening, (LaneFrame.laneCommandFailed l s).lanes⟩
  · rw [State.arbitrate, State.grantFrom_census 4 hfree ((s.servedNext_iff _).mp hnext) hx]
    rfl
  · exact State.grantFrom_sentOnline 5 _ s f l hfree hf hrank

end Sys2Proof.Machine
end

section
/-! SUPPORT. What the grants of one event do: each lane has been granted at most, or its command has failed at its grant
(R160), and the failures are a course. -/

namespace Sys2Proof.Machine

/-! ## Slots of other lanes -/

section
variable {s t u : State} {l m : LaneNo} {k j : Slot} {r : StepRecord}

theorem State.slotAt_recordVerdict_other {w : VerdictWrite} (h : j ≠ k) : (s.recordVerdict k w).slotAt j = s.slotAt j := by
  cases hr : s.recordAt k with
  | none => rw [State.recordVerdict_of_free w hr]
  | some r => exact (State.recordVerdict_recorded w hr).2.1 j h

theorem State.slotAt_enterReleasing_other {w : VerdictWrite} (h : (s.laneAt l).heldSlot ≠ some j) :
    (s.enterReleasing l w).slotAt j = s.slotAt j := by
  unfold State.enterReleasing
  dsimp only
  refine (State.slotAt_openSequence_other (by rw [State.laneAt_setLane_self]; exact h) _).trans ?_
  cases hslot : (s.laneAt l).heldSlot with
  | none => rfl
  | some k => exact State.slotAt_recordVerdict_other fun hjk => h (hjk ▸ hslot)

theorem State.slotAt_openCompleted_other (h : (s.laneAt l).heldSlot ≠ some j) : (s.openCompleted l).slotAt j = s.slotAt j :=
  State.slotAt_openSequence_other (s := s.setLane l _) (by rw [State.laneAt_setLane_self]; exact h) _

theorem State.slotAt_laneCommandFailed_other (h : (s.laneAt l).heldSlot ≠ some j) :
    (s.laneCommandFailed l).slotAt j = s.slotAt j := by
  unfold State.laneCommandFailed
  dsimp only
  split
  · exact State.slotAt_enterReleasing_other (s := s.setLane l _) (by rw [State.laneAt_setLane_self]; exact h)
  · exact State.slotAt_openCompleted_other h
  · rfl

theorem State.slotAt_endLaneWith_other {e : PendingEnd} (h : (s.laneAt l).heldSlot ≠ some j) :
    (s.endLaneWith l e).slotAt j = s.slotAt j := by
  unfold State.endLaneWith
  dsimp only
  split
  · rfl
  · split
    · split <;> rfl
    · exact State.slotAt_enterReleasing_other h
  · exact State.slotAt_enterReleasing_other h
  · exact State.slotAt_enterReleasing_other (s := s.clearOutstanding l) h
  · rfl

theorem Matched.heldBy (hs : Matched s) (h : (s.laneAt l).phase ≠ .idle) : ∃ k r, s.heldBy l = some (k, r) := by
  obtain ⟨k, hslot, hheld⟩ := hs.holds l h
  obtain ⟨r, hr, -⟩ := (s.heldAt_iff k).mp hheld
  exact ⟨k, r, (State.heldBy_eq_some s l k r).mpr ⟨hslot, hr⟩⟩

theorem Matched.busy_of_slot (hs : Matched s) (h : (s.laneAt l).heldSlot = some k) : (s.laneAt l).phase ≠ .idle := by
  intro hidle
  rw [hs.clean l hidle] at h
  cases h

/-- Two lanes do not hold one slot. -/
theorem Matched.slot_ne (hs : Matched s) (hne : m ≠ l) (hm : (s.laneAt m).heldSlot = some k) : (s.laneAt l).heldSlot ≠ some k :=
  fun hl => hne (hs.own m l (hs.busy_of_slot hm) (hs.busy_of_slot hl) (hm.trans hl.symm))

theorem State.heldBy_of_slots (hlane : t.laneAt m = s.laneAt m) (hslot : ∀ k ∈ (s.laneAt m).heldSlot, t.slotAt k = s.slotAt k) :
    t.heldBy m = s.heldBy m := by
  unfold State.heldBy
  rw [hlane]
  cases hk : (s.laneAt m).heldSlot with
  | none => rfl
  | some k =>
    have hrecord : t.recordAt k = s.recordAt k := congrArg StepSlot.record (hslot k hk)
    dsimp only
    rw [hrecord]

/-! ## A failed grant -/

/-- A lane whose command has failed, CLOSING or RELEASING (R114, R122). -/
def FailedLane (s t : State) (l : LaneNo) : Prop :=
  ((s.laneAt l).phase = .closing → StepEndedBy s t l ((s.laneAt l).pendingEnd.getD .matrixFault).verdict)
    ∧ ∀ k r, (s.laneAt l).phase = .releasing → s.heldBy l = some (k, r) →
      SlotHeldOrResolved s t l k (s.slotAt k).runMark r
        ∧ OpeningFrom t l r.program.nails.entries ((s.laneAt l).openPosition - 1) (s.laneAt l)

/-- A lane and its slot are the same but for a grant. -/
def SameButGrant (s t : State) (l : LaneNo) : Prop :=
  GrantedLane s t l ∧ ∀ k ∈ (s.laneAt l).heldSlot, t.slotAt k = s.slotAt k

/-- What the events at other lanes leave, so far as the end of this lane's step depends on it. -/
structure Elsewhere (s t : State) (l : LaneNo) : Prop where
  lane : t.laneAt l = s.laneAt l
  slots : ∀ k ∈ (s.laneAt l).heldSlot, t.slotAt k = s.slotAt k
  states : ∀ n, (t.nailAt n).state = (s.nailAt n).state
  mode : t.run.summary.mode = s.run.summary.mode
  number : t.run.number = s.run.number

theorem Elsewhere.heldBy (h : Elsewhere s t l) : t.heldBy l = s.heldBy l := State.heldBy_of_slots h.lane h.slots

theorem StepEndedBy.of_elsewhere {v : Verdict} (h : Elsewhere s t l) (g : StepEndedBy t u l v) : StepEndedBy s u l v :=
  g.congr_left h.heldBy h.states h.mode h.number ⟨_, _, _, _, _, _, h.lane⟩

theorem FailedLane.of_elsewhere (h : Elsewhere s t l) (g : FailedLane t u l) : FailedLane s u l := by
  obtain ⟨hclosing, hreleasing⟩ := g
  rw [h.lane] at hclosing hreleasing
  refine ⟨fun hphase => (hclosing hphase).of_elsewhere h, fun k r hphase hheld => ?_⟩
  obtain ⟨hrecord, hopening⟩ := hreleasing k r hphase (h.heldBy.trans hheld)
  rw [h.slots k ((State.heldBy_eq_some s l k r).mp hheld).1] at hrecord
  exact ⟨hrecord.congr_left h.states, hopening⟩

theorem FailedLane.stable (hgrant : GrantedLane t u l) (hslot : ∀ k ∈ (s.laneAt l).heldSlot, u.slotAt k = t.slotAt k)
    (hcards : u.cards = t.cards) (htimebase : u.timebase = t.timebase) (h : FailedLane s t l) : FailedLane s u l := by
  obtain ⟨hclosing, hreleasing⟩ := h
  refine ⟨fun hphase => (hclosing hphase).stable hgrant hslot hcards htimebase, fun k r hphase hheld => ?_⟩
  obtain ⟨hrecord, hopening⟩ := hreleasing k r hphase hheld
  exact ⟨hrecord.stable hgrant (hslot k ((State.heldBy_eq_some s l k r).mp hheld).1), hopening.stable hgrant hcards htimebase⟩

/-- What a failed command leaves of another lane. -/
theorem Elsewhere.passedOn (hs : Matched s) {a b : Nat} (hcourse : Course s (s.passedOn m) a b) (hne : l ≠ m) :
    Elsewhere s (s.passedOn m) l where
  lane := (LaneFrame.laneCommandFailed m _).lanes l hne
  slots _ hk := State.slotAt_laneCommandFailed_other (s := { s with link := _ }) (hs.slot_ne hne hk)
  states n := (hcourse.frame.2.1 n).1
  mode := hcourse.mode
  number := hcourse.number

/-- The failure of a lane's command, with the course of that event. -/
theorem State.laneCommandFailed_fails (hcanon : s.canonical = true) (hs : Matched s) (m : LaneNo) :
    FailedLane s (s.laneCommandFailed m) m
      ∧ ∃ a b, Course s (s.laneCommandFailed m) a b
        ∧ b = if (s.laneAt m).phase = .closing then ((s.laneAt m).pendingEnd.getD .matrixFault).aborts else 0 := by
  cases hphase : (s.laneAt m).phase with
  | closing =>
    obtain ⟨k, r, hheld⟩ := hs.heldBy (l := m) (by rw [hphase]; decide)
    obtain ⟨hcourse, hended⟩ := State.laneCommandFailed_closing hcanon hphase hheld rfl
    refine ⟨⟨fun _ => hended, fun k r hreleasing => ?_⟩, _, _, hcourse, (if_pos rfl).symm⟩
    rw [hphase] at hreleasing
    cases hreleasing
  | releasing =>
    obtain ⟨k, r, hheld⟩ := hs.heldBy (l := m) (by rw [hphase]; decide)
    obtain ⟨hcourse, hreleased⟩ := State.laneCommandFailed_releasing hcanon hphase hheld
    refine ⟨⟨fun hclosing => ?_, fun k r _ hkr => ?_⟩, _, _, hcourse, (if_neg (by decide)).symm⟩
    · rw [hphase] at hclosing; cases hclosing
    · obtain ⟨rfl, rfl⟩ := Prod.mk.inj (Option.some.inj (hheld.symm.trans hkr))
      exact hreleased
  | idle | settling | measuring =>
    have hcourse : Course s (s.laneCommandFailed m) 0 0 :=
      .laneCommandFailed_other (by rw [hphase]; decide) (by rw [hphase]; decide)
    refine ⟨⟨fun hclosing => ?_, fun _ _ hreleasing => ?_⟩, _, _, hcourse, (if_neg (by decide)).symm⟩
    · rw [hphase] at hclosing; cases hclosing
    · rw [hphase] at hreleasing; cases hreleasing

/-- The failure of a command at its grant. -/
theorem State.passedOn_fails (hcanon : s.canonical = true) (hs : Matched s) (m : LaneNo) :
    FailedLane s (s.passedOn m) m
      ∧ ∃ a b, Course s (s.passedOn m) a b ∧ ((s.laneAt m).pendingEnd = none → b = 0) := by
  have hlink : Course s { s with link := { s.link with lastGranted := rankOfLane m } } 0 0 :=
    .of_requests (fun _ => rfl) (fun _ => rfl) (fun _ => rfl) ⟨_, _, _, _, rfl⟩
  have helsewhere : Elsewhere s { s with link := { s.link with lastGranted := rankOfLane m } } m :=
    ⟨rfl, fun _ _ => rfl, fun _ => rfl, rfl, rfl⟩
  obtain ⟨hfailed, a, b, hcourse, haborts⟩ := State.laneCommandFailed_fails
    (s := { s with link := { s.link with lastGranted := rankOfLane m } }) hcanon (matched_laneKept.sameTables hs) m
  refine ⟨hfailed.of_elsewhere helsewhere, _, _, hlink.trans hcourse, fun hnone => ?_⟩
  rw [Nat.zero_add, haborts, helsewhere.lane, hnone]
  exact ite_self 0

/-! ## The grants of an event -/

/-- The grants of one event have been made: a lane is the same but for a grant, or waited in vain and its command failed. -/
structure Grants (s t : State) : Prop where
  lanes : ∀ m, SameButGrant s t m ∨ (s.doomed m ∧ FailedLane s t m)
  slots : ∀ j, (∀ m, s.doomed m → (s.laneAt m).heldSlot ≠ some j) → t.slotAt j = s.slotAt j
  course : ∃ a b, Course s t a b ∧ ((∀ m, (s.laneAt m).endSound) → b = 0)

theorem Grants.of_granted (h : Granted s t) : Grants s t := by
  have hslot (j : Slot) : t.slotAt j = s.slotAt j := by
    obtain ⟨_, _, _, rfl⟩ := h.rest
    rfl
  exact ⟨fun m => .inl ⟨h.lanes m, fun k _ => hslot k⟩, fun j _ => hslot j, 0, 0, .of_granted h, fun _ => rfl⟩

theorem State.pendingEnd_of_doomed (hdoomed : s.doomed m) (hsound : (s.laneAt m).endSound) : (s.laneAt m).pendingEnd = none := by
  by_contra hpending
  have hflight := (hsound.2 hpending).2
  rw [hdoomed.1] at hflight
  cases hflight

theorem Grants.of_passedOn (hcanon : s.canonical = true) (hs : Matched s) (hdoomed : s.doomed m)
    (h : Grants (s.passedOn m) t) : Grants s t := by
  obtain ⟨hfailed, a, b, hcourse, haborts⟩ := State.passedOn_fails hcanon hs m
  have helsewhere (n : LaneNo) (hn : n ≠ m) : Elsewhere s (s.passedOn m) n := .passedOn hs hcourse hn
  have hsettled : ¬ (s.passedOn m).doomed m := State.laneCommandFailed_settled _ m
  have hstill (n : LaneNo) (hn : (s.passedOn m).doomed n) : n ≠ m ∧ s.doomed n := by
    have hne : n ≠ m := fun heq => hsettled (heq ▸ hn)
    have hsame := helsewhere n hne
    have hnails : (s.passedOn m).heldNails n = s.heldNails n := by
      unfold State.heldNails
      rw [hsame.heldBy]
    exact ⟨hne, State.doomed_eq hsame.lane hnails hcourse.cards hn⟩
  obtain ⟨c, d, hlater, hlaterAborts⟩ := h.course
  refine ⟨fun n => ?_, fun j hj => ?_, a + c, b + d, hcourse.trans hlater, fun hsound => ?_⟩
  · by_cases hn : n = m
    · subst hn
      have hgrant := (h.lanes n).resolve_right fun hand => hsettled hand.1
      refine .inr ⟨hdoomed, hfailed.stable hgrant.1 (fun k hk => h.slots k fun x hx => ?_) hlater.cards hlater.timebase⟩
      obtain ⟨hne, -⟩ := hstill x hx
      rw [(helsewhere x hne).lane]
      exact hs.slot_ne (Ne.symm hne) hk
    · have hsame := helsewhere n hn
      refine (h.lanes n).imp (fun hgrant => ?_) fun hand => ⟨(hstill n hand.1).2, hand.2.of_elsewhere hsame⟩
      obtain ⟨hlane, hslots⟩ := hgrant
      unfold SameButGrant GrantedLane at *
      rw [hsame.lane] at hlane hslots
      exact ⟨hlane, fun k hk => (hslots k hk).trans (hsame.slots k hk)⟩
  · rw [h.slots j fun x hx => ?_]
    · exact State.slotAt_laneCommandFailed_other (s := { s with link := _ }) (hj m hdoomed)
    · obtain ⟨hne, hx'⟩ := hstill x hx
      rw [(helsewhere x hne).lane]
      exact hj x hx'
  · have hkept := pendingEnds_holdKept.laneCommandFailed (l := m) (pendingEnds_holdKept.sameTables
      (t := { s with link := { s.link with lastGranted := rankOfLane m } }) ⟨⟨hcanon, hs⟩, hsound⟩)
    rw [haborts (State.pendingEnd_of_doomed hdoomed (hsound m)), hlaterAborts hkept.2]

/-- What the grants of an event can do. -/
theorem Grants.grantFrom (fuel : Nat) (last : Fin 5) (hcanon : s.canonical = true) (hs : Matched s) :
    Grants s (State.grantFrom fuel last s) := by
  induction fuel generalizing last s with
  | zero =>
    exact ⟨fun m => .inl ⟨.inl rfl, fun _ _ => rfl⟩, fun _ _ => rfl, 0, 0, .refl s, fun _ => rfl⟩
  | succ fuel ih =>
    rcases State.grantFrom_step last s with ⟨t, hgrant, -, heq⟩ | ⟨m, -, hdoomed, heq⟩
    · rw [heq]; exact .of_granted hgrant
    · rw [heq]
      exact .of_passedOn hcanon hs hdoomed (ih _ (State.canonical_laneCommandFailed (by exact hcanon) m) (hs.passedOn m))

theorem Grants.arbitrate (hcanon : s.canonical = true) (hs : Matched s) : Grants s s.arbitrate := .grantFrom 5 _ hcanon hs

end

end Sys2Proof.Machine
end

section
/-! SUPPORT. Ends of steps ordered at several lanes of one event: each lane takes its own, and what it took stays. -/

namespace Sys2Proof.Machine

section
variable {s t u v : State} {l m : LaneNo} {k j : Slot} {r : StepRecord} {e : PendingEnd}

/-! ## What a taken end says later -/

theorem EndTaken.stable (hlane : u.laneAt l = t.laneAt l) (hslots : ∀ k ∈ (s.laneAt l).heldSlot, u.slotAt k = t.slotAt k)
    (hcards : u.cards = t.cards) (htimebase : u.timebase = t.timebase) (h : EndTaken s t l e) : EndTaken s u l e := by
  unfold EndTaken at *
  split_ifs at h ⊢ with honce hclosing
  · exact h.stable (.inl hlane) hslots hcards htimebase
  · exact ⟨fun k hk => (hslots k hk).trans (h.1 k hk), hlane.trans h.2⟩
  · exact ⟨fun k hk => (hslots k hk).trans (h.1 k hk), hlane.trans h.2⟩

theorem EndTaken.of_elsewhere (h : Elsewhere s t l) (g : EndTaken t u l e) : EndTaken s u l e := by
  unfold EndTaken at *
  rw [h.lane] at g
  split_ifs at g ⊢ with honce hclosing
  · exact g.of_elsewhere h
  · exact ⟨fun k hk => (g.1 k hk).trans (h.slots k hk), g.2⟩
  · exact ⟨fun k hk => (g.1 k hk).trans (h.slots k hk), g.2⟩

theorem Elsewhere.trans (h : Elsewhere s t l) (g : Elsewhere t u l) : Elsewhere s u l where
  lane := g.lane.trans h.lane
  slots k hk := (g.slots k (h.lane ▸ hk)).trans (h.slots k hk)
  states n := (g.states n).trans (h.states n)
  mode := g.mode.trans h.mode
  number := g.number.trans h.number

theorem Elsewhere.refl (s : State) (l : LaneNo) : Elsewhere s s l := ⟨rfl, fun _ _ => rfl, fun _ => rfl, rfl, rfl⟩

theorem Elsewhere.doomed (h : Elsewhere s t l) (hcards : t.cards = s.cards) (hdoomed : t.doomed l) : s.doomed l := by
  have hnails : t.heldNails l = s.heldNails l := by
    unfold State.heldNails
    rw [h.heldBy]
  exact State.doomed_eq h.lane hnails hcards hdoomed

theorem State.endLaneWith_settled (h : ¬ s.doomed l ∨ (s.laneAt l).endsAtOnce = true) : ¬ (s.endLaneWith l e).doomed l := by
  have hentered (t : State) (w : VerdictWrite) : ¬ (t.enterReleasing l w).doomed l := by
    unfold State.enterReleasing
    exact State.openSequence_settled _ (by rw [State.laneAt_setLane_self]) (by rw [State.laneAt_setLane_self])
  unfold State.endLaneWith
  dsimp only
  split
  next hphase => exact h.resolve_right (by simp [Lane.endsAtOnce, hphase, LanePhase.underway])
  next hphase =>
    split
    next hflight =>
      split
      · exact h.resolve_right (by simp [Lane.endsAtOnce, hphase, hflight])
      · rintro ⟨hwaits, -⟩
        rw [State.laneAt_setLane_self, hflight] at hwaits
        cases hwaits
    next => exact hentered _ _
  next => exact hentered _ _
  next => exact hentered _ _
  next hphase => exact h.resolve_right (by simp [Lane.endsAtOnce, hphase, LanePhase.underway])

/-! ## Lanes that take an end in turn -/

/-- The lanes listed have taken an end in turn, and the others are the same. -/
structure Ordered (s t : State) (e : PendingEnd) (ended : List LaneNo) : Prop where
  canonical : t.canonical = true
  matched : Matched t
  taken : ∀ l ∈ ended, EndTaken s t l e
  others : ∀ l, l ∉ ended → Elsewhere s t l
  course : Course s t ((ended.filter (fun l => (s.laneAt l).endsAtOnce)).length * e.faults)
    ((ended.filter (fun l => (s.laneAt l).endsAtOnce)).length * e.aborts)
  doomed : ∀ l, t.doomed l → s.doomed l ∧ (l ∈ ended → (s.laneAt l).endsAtOnce = false)
  link : t.link = s.link
  census : t.census = s.census

theorem Ordered.nil (hcanon : s.canonical = true) (hs : Matched s) : Ordered s s e [] where
  canonical := hcanon
  matched := hs
  taken _ h := nomatch h
  others l _ := .refl s l
  course := by
    rw [List.filter_nil, List.length_nil, Nat.zero_mul, Nat.zero_mul]
    exact .refl s
  doomed _ h := ⟨h, nofun⟩
  link := rfl
  census := rfl

theorem Lane.counted_eq (w : Lane) (n : Nat) : w.counted n = (if w.endsAtOnce then 1 else 0) * n := by
  unfold Lane.counted
  split_ifs <;> omega

/-- One more lane takes the end. -/
theorem Ordered.cons {ended : List LaneNo} (hs : Matched s) (h : Ordered s t e ended) (hl : l ∉ ended) :
    Ordered s (t.endLaneWith l e) e (l :: ended) := by
  have hframe := LaneFrame.endLaneWith l t e
  have hsame := h.others l hl
  obtain ⟨htaken, hcourse⟩ := State.endLaneWith_taken h.canonical h.matched.heldBy e
  obtain ⟨hkept, hkept'⟩ := matched_holdKept.endLaneWith (l := l) e ⟨h.canonical, h.matched⟩
  have hslot {m : LaneNo} (hm : m ≠ l) : ∀ k ∈ (s.laneAt m).heldSlot, (t.endLaneWith l e).slotAt k = t.slotAt k := fun k hk =>
    State.slotAt_endLaneWith_other (by rw [hsame.lane]; exact hs.slot_ne hm hk)
  have helsewhere {m : LaneNo} (hm : m ≠ l) (hheld : (t.laneAt m).heldSlot = (s.laneAt m).heldSlot) :
      Elsewhere t (t.endLaneWith l e) m :=
    ⟨hframe.lanes m hm, fun k hk => hslot hm k (hheld ▸ hk), fun n => (hcourse.frame.2.1 n).1, hframe.mode, hframe.number⟩
  refine ⟨hkept, hkept', fun m hm => ?_, fun m hm => ?_, ?_, fun m hdoomed => ?_, hframe.link.trans h.link,
    hframe.census.trans h.census⟩
  · by_cases hml : m = l
    · subst hml
      exact htaken.of_elsewhere hsame
    · have hended : m ∈ ended := (List.mem_cons.mp hm).resolve_left hml
      obtain ⟨htimebase, -⟩ := hframe.settings
      exact (h.taken m hended).stable (hframe.lanes m hml) (hslot hml) hframe.cards htimebase
  · obtain ⟨hml, hnot⟩ := not_or.mp (fun hor => hm (List.mem_cons.mpr hor))
    have hother := h.others m hnot
    exact hother.trans (helsewhere hml (by rw [hother.lane]))
  · have hall := h.course.trans hcourse
    rw [hsame.lane, Lane.counted_eq, Lane.counted_eq] at hall
    rw [List.filter_cons]
    split_ifs at hall ⊢ with honce
    · rw [List.length_cons, Nat.succ_mul, Nat.succ_mul]
      simpa only [Nat.one_mul] using hall
    · simpa only [Nat.zero_mul, Nat.add_zero] using hall
  · by_cases hml : m = l
    · subst hml
      by_cases honce : (s.laneAt m).endsAtOnce = true
      · exact absurd hdoomed (State.endLaneWith_settled (.inr (by rw [hsame.lane]; exact honce)))
      · have hstill : t.doomed m := by
          by_contra hnot
          exact State.endLaneWith_settled (.inl hnot) hdoomed
        exact ⟨(h.doomed m hstill).1, fun _ => by simpa using honce⟩
    · have hbusy : (t.laneAt m).phase ≠ .idle := fun hidle => by
        have hwaits := hdoomed.1
        rw [hframe.lanes m hml, h.matched.clean m hidle] at hwaits
        cases hwaits
      have hnails : (t.endLaneWith l e).heldNails m = t.heldNails m := by
        by_cases hlbusy : (t.laneAt l).phase = .idle
        · rw [State.endLaneWith_of_idle hlbusy]
        · exact (LaneWork.endLaneWith e hlbusy).heldNails_other h.matched hlbusy hbusy hml
      obtain ⟨hdoomed', honce⟩ := h.doomed m (State.doomed_eq (hframe.lanes m hml) hnails hframe.cards hdoomed)
      exact ⟨hdoomed', fun hm => honce ((List.mem_cons.mp hm).resolve_left hml)⟩

/-- Lanes chosen from a list take an end in turn. -/
theorem Ordered.foldl {p : State → LaneNo → Bool} {q : LaneNo → Bool} (hs : Matched s)
    (hp : ∀ (t : State) (l : LaneNo), Elsewhere s t l → p t l = q l) :
    ∀ (ls ended : List LaneNo) (t : State), ls.Nodup → (∀ l ∈ ls, l ∉ ended) → Ordered s t e ended →
      Ordered s (ls.foldl (fun t l => if p t l then t.endLaneWith l e else t) t) e ((ls.filter q).reverse ++ ended) := by
  intro ls
  induction ls with
  | nil => exact fun _ _ _ _ h => h
  | cons l ls ih =>
    intro ended t hnodup hfresh h
    obtain ⟨hl, hnodup⟩ := List.nodup_cons.mp hnodup
    have hfresh' : ∀ m ∈ ls, m ∉ ended := fun m hm => hfresh m (List.mem_cons_of_mem _ hm)
    have hnew := hfresh l List.mem_cons_self
    rw [List.foldl_cons, List.filter_cons, hp t l (h.others l hnew)]
    split_ifs with hq
    · rw [List.reverse_cons, List.append_assoc]
      refine ih (l :: ended) _ hnodup (fun m hm hmem => ?_) (h.cons hs hnew)
      rcases List.mem_cons.mp hmem with rfl | hmem
      · exact hl hm
      · exact hfresh' m hm hmem
    · exact ih ended t hnodup hfresh' h

theorem allLanes_nodup : allLanes.Nodup := by decide

end

end Sys2Proof.Machine
end

section
/-! SUPPORT. Orders to abandon every lane's step (R80, R124), and what a force leaves of the run. -/

namespace Sys2Proof.Machine

section
variable {s t u : State} {l m : LaneNo} {k j : Slot} {r : StepRecord}

/-! ## Every lane ordered to abandon -/

theorem Course.drawn (s : State) (draws : Nat) : Course s { s with freeDraws := draws } 0 0 :=
  .of_requests (fun _ => rfl) (fun _ => rfl) (fun _ => rfl) ⟨_, _, _, _, rfl⟩

theorem State.grantFrom_granted (h : ∀ m, ¬ s.doomed m) (fuel : Nat) (last : Fin 5) :
    Granted s (State.grantFrom (fuel + 1) last s) := by
  rcases State.grantFrom_step last s with ⟨t, hgrant, -, heq⟩ | ⟨m, -, hdoomed, -⟩
  · exact heq fuel ▸ hgrant
  · exact absurd hdoomed (h m)

/-- Every lane has been ordered to abandon its step, and no grant made yet. -/
def State.ordered (s : State) : State := allLanes.foldl (fun t l => t.endLaneWith l .aborted) s

theorem State.abandonAll_eq (s : State) :
    s.abandonAll =
      if s.link.inFlight.isNone ∧ 2 ≤ (allLanes.filter (fun l => s.ordered.waits (rankOfLane l))).length then
        State.grantFrom 5 (Config.freeRank s.freeDraws) { s.ordered with freeDraws := s.freeDraws + 1 }
      else s.ordered.arbitrate := rfl

theorem State.ordered_taken (hcanon : s.canonical = true) (hs : Matched s) :
    Ordered s s.ordered .aborted allLanes.reverse := by
  have h := Ordered.foldl (e := .aborted) (p := fun _ _ => true) (q := fun _ => true) hs
      (fun _ _ _ => rfl) allLanes [] s allLanes_nodup
    (fun _ _ => List.not_mem_nil) (.nil hcanon hs)
  rw [List.filter_true, List.append_nil] at h
  exact h

theorem State.abandonAll_of_busy (hlink : s.ordered.link = s.link) (hbusy : s.link.inFlight ≠ none) :
    s.abandonAll = s.ordered := by
  rw [State.abandonAll_eq, if_neg fun hand => hbusy (Option.isNone_iff_eq_none.mp hand.1)]
  exact State.grantFrom_of_busy _ _ (hlink ▸ Option.isSome_iff_ne_none.mpr hbusy)

theorem State.abandonAll_granted (h : ∀ m, ¬ s.ordered.doomed m) :
    ∃ draws, Granted { s.ordered with freeDraws := draws } s.abandonAll := by
  have hdrawn (draws : Nat) (m : LaneNo) : ¬ ({ s.ordered with freeDraws := draws } : State).doomed m := h m
  rw [State.abandonAll_eq]
  split_ifs
  · exact ⟨s.freeDraws + 1, State.grantFrom_granted (hdrawn _) 4 _⟩
  · exact ⟨s.ordered.freeDraws, State.grantFrom_granted (hdrawn _) 4 _⟩

theorem EndTaken.granted {e : PendingEnd} (hrequest : (s.laneAt l).linkRequest ≠ .waiting) (hlane : GrantedLane t u l)
    (hslot : ∀ k, u.slotAt k = t.slotAt k) (hcards : u.cards = t.cards) (htimebase : u.timebase = t.timebase)
    (h : EndTaken s t l e) : EndTaken s u l e := by
  unfold EndTaken at *
  split_ifs at h ⊢ with honce hclosing
  · exact h.stable hlane (fun k _ => hslot k) hcards htimebase
  · have hkept := hlane.kept (by rw [h.2]; exact hrequest)
    exact ⟨fun k hk => (hslot k).trans (h.1 k hk), hkept.trans h.2⟩
  · have hkept := hlane.kept (by rw [h.2]; exact hrequest)
    exact ⟨fun k hk => (hslot k).trans (h.1 k hk), hkept.trans h.2⟩

/-- Every lane has been ordered to abandon its step, and the grants made. -/
structure Abandoned (s t : State) : Prop where
  taken : ∀ l, EndTaken s t l .aborted
  course : Course s t 0 (allLanes.filter (fun l => (s.laneAt l).endsAtOnce)).length
  census : t.census = s.census
  link : s.link.inFlight ≠ none → t.link = s.link

theorem State.abandonAll_abandoned (hcanon : s.canonical = true) (hs : Matched s) (hserved : s.linkServed) :
    Abandoned s s.abandonAll := by
  have hordered := State.ordered_taken hcanon hs
  have hmem (l : LaneNo) : l ∈ allLanes.reverse := List.mem_reverse.mpr (mem_allLanes l)
  have hcourse := hordered.course
  rw [List.filter_reverse, List.length_reverse] at hcourse
  simp only [PendingEnd.faults, PendingEnd.aborts, Nat.mul_zero, Nat.mul_one] at hcourse
  by_cases hfree : s.link.inFlight = none
  · have hnobody := hserved hfree
    have hrequest (l : LaneNo) : (s.laneAt l).linkRequest ≠ .waiting := by
      have hl := hnobody (rankOfLane l)
      rw [State.waits_lane, decide_eq_false_iff_not] at hl
      exact hl
    obtain ⟨draws, hgrant⟩ := State.abandonAll_granted fun m hdoomed => hrequest m (hordered.doomed m hdoomed).1.1
    refine ⟨fun l => (hordered.taken l (hmem l)).granted (hrequest l) (hgrant.lanes l) (fun k => ?_) ?_ ?_,
      (hcourse.trans (.drawn _ draws)).trans (.of_granted hgrant), ?_, fun hbusy => absurd hfree hbusy⟩
    · obtain ⟨_, _, _, heq⟩ := hgrant.rest
      rw [heq]
      rfl
    · obtain ⟨_, _, _, heq⟩ := hgrant.rest
      rw [heq]
    · obtain ⟨_, _, _, heq⟩ := hgrant.rest
      rw [heq]
    · refine (hgrant.census ?_).trans hordered.census
      exact (Course.waits_congr hordered.census).trans (hnobody 4)
  · rw [State.abandonAll_of_busy hordered.link hfree]
    exact ⟨fun l => hordered.taken l (hmem l), hcourse, hordered.census, fun _ => hordered.link⟩

/-! ## The run of a force (R80, R83) -/

theorem StepsEndedFrame.testRunEnd (h : StepsEndedFrame s t) : StepsEndedFrame s t.testRunEnd := by
  rw [State.testRunEnd_frame]
  exact h

theorem EndTaken.testRunEnd {e : PendingEnd} (h : EndTaken s t l e) : EndTaken s t.testRunEnd l e := by
  refine h.stable ?_ (fun k _ => ?_) ?_ ?_ <;> rw [State.testRunEnd_frame] <;> rfl

theorem State.lanesAbandoned_force (hcanon : s.canonical = true) (hs : Matched s) (hserved : s.linkServed)
    (hstate : s.run.state ≠ .running) : LanesAbandoned s s.force s.run := by
  obtain ⟨htaken, hcourse, hcensus, hlink⟩ := State.abandonAll_abandoned hcanon hs hserved
  have hrun := hcourse.run
  rw [RunControl.countingEnds_aborts] at hrun
  have hexam : s.abandonAll.exam = s.exam := by
    rw [hcourse.exam]
    unfold examAfter
    rw [if_neg fun hand => hstate hand.2]
  have hframe := State.testRunEnd_frame s.abandonAll
  refine ⟨fun l => (htaken l).testRunEnd, hcourse.frame.testRunEnd, .again ?_, ?_, ?_, fun hbusy => ?_⟩
  · split at hrun
    · exact .inl hrun
    · exact .inr hrun
  · unfold State.force
    rw [State.exam_testRunEnd, hexam]
  · unfold State.force
    rw [hframe]
    exact hcensus
  · unfold State.force
    rw [hframe]
    exact hlink hbusy

end

end Sys2Proof.Machine
end

section
/-! CERTIFICATE. A force, by request or by an opening of the fixture (R80 to R82). -/

namespace Sys2Proof.Machine

/-! ## The run under a force -/

/-- A DRAINING run goes on or ends ABORTED, and keeps its abort reason. -/
structure DrainsOn (a b : RunControl) : Prop where
  reason : b.summary.abortReason = a.summary.abortReason
  state : a.state = .draining ∨ a.state = .aborted → b.state = .draining ∨ b.state = .aborted

theorem DrainsOn.refl (a : RunControl) : DrainsOn a a := ⟨rfl, id⟩

theorem DrainsOn.trans {a b c : RunControl} (h : DrainsOn a b) (g : DrainsOn b c) : DrainsOn a c :=
  ⟨g.reason.trans h.reason, fun ha => g.state (h.state ha)⟩

theorem DrainsOn.of_eq {a b : RunControl} (h : b = a) : DrainsOn a b := h ▸ .refl a

theorem DrainsOn.counting (a : RunControl) (v : Verdict) : DrainsOn a (a.counting v) := ⟨rfl, id⟩

section
variable {s t u : State} {l m : LaneNo}

theorem DrainsOn.testRunEnd (s : State) : DrainsOn s.run s.testRunEnd.run where
  reason := s.abortReason_testRunEnd
  state h := by
    unfold State.testRunEnd
    split_ifs with hdone hdrained
    · rw [hdone.1] at h
      rcases h with h | h <;> cases h
    · exact .inr rfl
    · exact h

theorem DrainsOn.endRelease (s : State) (l : LaneNo) : DrainsOn s.run (s.endRelease l).run := by
  rw [State.endRelease_eq]
  refine .trans (.of_eq ?_) (.testRunEnd _)
  rw [State.reportOpportunity_run, State.setLane_run, State.releasedTables_run]

theorem DrainsOn.openSequence (l : LaneNo) (n : Nat) (s : State) : DrainsOn s.run (State.openSequence l n s).run := by
  rcases State.openSequence_cases l n s with heq | ⟨_, _, _, _, _, _, heq⟩ <;> rw [heq]
  · rcases s.startReleaseWait_cases l with heq | ⟨_, _, _, heq⟩ <;> rw [heq]
    · exact .endRelease (s.setLane l _) l
    · exact .refl _
  · exact .refl _

theorem DrainsOn.enterReleasing (s : State) (l : LaneNo) (w : VerdictWrite) : DrainsOn s.run (s.enterReleasing l w).run := by
  unfold State.enterReleasing
  dsimp only
  refine .trans ?_ (.openSequence l _ _)
  rw [State.setLane_run]
  split
  · exact .refl _
  · rename_i k hk
    rcases s.recordVerdict_run_kept k w with h | h <;> rw [h]
    · exact .refl _
    · exact .counting _ _

theorem DrainsOn.endLaneWith (s : State) (l : LaneNo) (e : PendingEnd) : DrainsOn s.run (s.endLaneWith l e).run := by
  unfold State.endLaneWith
  dsimp only
  split
  · exact .refl _
  · split
    · split <;> exact .refl _
    · exact .enterReleasing _ _ _
  · exact .enterReleasing _ _ _
  · exact .enterReleasing (s.clearOutstanding l) _ _
  · exact .refl _

theorem DrainsOn.laneCommandFailed (s : State) (l : LaneNo) : DrainsOn s.run (s.laneCommandFailed l).run := by
  unfold State.laneCommandFailed
  dsimp only
  split
  · exact .enterReleasing (s.setLane l _) _ _
  · exact .openSequence _ _ (s.setLane l _)
  · exact .refl _

/-! ## What a force leaves -/

/-- A lane after an order to abandon: it is not SETTLING or MEASURING, and in CLOSING its command is in flight and its end is
pending. -/
def Lane.ordered (v : Lane) : Prop :=
  v.phase ≠ .settling ∧ v.phase ≠ .measuring ∧ (v.phase = .closing → v.pendingEnd ≠ none ∧ v.linkRequest = .inFlight)

theorem Lane.ordered_of_phase {v : Lane} (h : v.phase = .releasing ∨ v.phase = .idle) : v.ordered := by
  unfold Lane.ordered
  rcases h with h | h <;> simp [h]

/-- What a force leaves as it was. -/
structure ForceFrame (s t : State) : Prop where
  cards : t.cards = s.cards
  timebase : t.timebase = s.timebase
  enables : t.enables = s.enables
  settings : t.settings = s.settings
  pending : t.pending = s.pending
  port : SamePort s t
  number : t.run.number = s.run.number
  fixture : t.run.fixture = s.run.fixture
  filterTimer : t.run.filterTimer = s.run.filterTimer
  run : DrainsOn s.run t.run

theorem ForceFrame.refl (s : State) : ForceFrame s s := ⟨rfl, rfl, rfl, rfl, rfl, ⟨rfl, rfl, rfl⟩, rfl, rfl, rfl, .refl _⟩

theorem ForceFrame.trans (h : ForceFrame s t) (g : ForceFrame t u) : ForceFrame s u where
  cards := g.cards.trans h.cards
  timebase := g.timebase.trans h.timebase
  enables := g.enables.trans h.enables
  settings := g.settings.trans h.settings
  pending := g.pending.trans h.pending
  port := by
    obtain ⟨hport, htransfer, hout⟩ := h.port
    obtain ⟨hport', htransfer', hout'⟩ := g.port
    exact ⟨hport'.trans hport, htransfer'.trans htransfer, hout'.trans hout⟩
  number := g.number.trans h.number
  fixture := g.fixture.trans h.fixture
  filterTimer := g.filterTimer.trans h.filterTimer
  run := h.run.trans g.run

theorem ForceFrame.of_lane (h : LaneFrame l s t) (hrun : DrainsOn s.run t.run) : ForceFrame s t := by
  obtain ⟨htimebase, henables, hsettings, -, hpending⟩ := h.settings
  exact ⟨h.cards, htimebase, henables, hsettings, hpending, h.port, h.number, h.fixture, h.filterTimer, hrun⟩

theorem ForceFrame.passedOn (s : State) (m : LaneNo) : ForceFrame s (s.passedOn m) :=
  .trans (t := { s with link := { s.link with lastGranted := rankOfLane m } })
    ⟨rfl, rfl, rfl, rfl, rfl, ⟨rfl, rfl, rfl⟩, rfl, rfl, rfl, .refl _⟩ (.of_lane (.laneCommandFailed m _)
        (.laneCommandFailed _ m))

theorem ForceFrame.granted (h : Granted s t) : ForceFrame s t := by
  obtain ⟨_, _, _, rfl⟩ := h.rest
  exact ⟨rfl, rfl, rfl, rfl, rfl, ⟨rfl, rfl, rfl⟩, rfl, rfl, rfl, .refl _⟩

theorem ForceFrame.grantFrom (fuel : Nat) (last : Fin 5) (s : State) : ForceFrame s (State.grantFrom fuel last s) := by
  induction fuel generalizing last s with
  | zero => exact .refl s
  | succ fuel ih =>
    rcases State.grantFrom_step last s with ⟨t, hgrant, -, heq⟩ | ⟨m, -, -, heq⟩ <;> rw [heq]
    · exact .granted hgrant
    · exact (ForceFrame.passedOn s m).trans (ih _ _)

theorem ForceFrame.abandonAll (s : State) : ForceFrame s s.abandonAll := by
  have hordered : ForceFrame s s.ordered :=
    List.foldlRecOn (motive := fun t : State => ForceFrame s t) allLanes _ (.refl s)
      fun t ht l _ => ht.trans (.of_lane (.endLaneWith l t _) (.endLaneWith t l _))
  have hdrawn (draws : Nat) : ForceFrame s { s.ordered with freeDraws := draws } :=
    hordered.trans ⟨rfl, rfl, rfl, rfl, rfl, ⟨rfl, rfl, rfl⟩, rfl, rfl, rfl, .refl _⟩
  rw [State.abandonAll_eq]
  split_ifs
  · exact (hdrawn _).trans (.grantFrom 5 _ _)
  · exact hordered.trans (.grantFrom 5 _ _)

/-! ## The lanes -/

theorem State.ordered_endLaneWith (s : State) (l : LaneNo) (e : PendingEnd) : ((s.endLaneWith l e).laneAt l).ordered :=
  s.phase_endLaneWith l e

theorem State.ordered_openSequence {n : Nat} (h : (s.laneAt l).phase = .releasing) :
    ((State.openSequence l n s).laneAt l).ordered := by
  rcases State.laneAt_openSequence l n s with heq | ⟨_, _, _, heq⟩ <;> rw [heq]
  · exact Lane.ordered_of_phase (.inr rfl)
  · exact Lane.ordered_of_phase (.inl h)

theorem State.ordered_laneCommandFailed (h : (s.laneAt l).ordered) : ((s.laneCommandFailed l).laneAt l).ordered := by
  unfold State.laneCommandFailed
  dsimp only
  split
  · rcases State.phase_enterReleasing (s.setLane l _) l _ with heq | heq
    · exact Lane.ordered_of_phase (.inl heq)
    · rw [heq]
      exact Lane.ordered_of_phase (.inr rfl)
  · rename_i hreleasing
    exact State.ordered_openSequence (by rw [State.laneAt_setLane_self]; exact hreleasing)
  · rename_i hclosing _
    rw [State.laneAt_setLane_self]
    exact ⟨h.1, h.2.1, fun hphase => absurd hphase hclosing⟩

theorem Granted.ordered (h : Granted s t) (hs : ∀ m, (s.laneAt m).ordered) (m : LaneNo) : (t.laneAt m).ordered := by
  obtain ⟨hsettling, hmeasuring, hclosing⟩ := hs m
  rcases h.lanes m with heq | ⟨hwaits, heq⟩ <;> rw [heq]
  · exact hs m
  · exact ⟨hsettling, hmeasuring, fun hphase => ⟨(hclosing hphase).1, rfl⟩⟩

theorem State.ordered_grantFrom (fuel : Nat) (last : Fin 5) (hs : ∀ m, (s.laneAt m).ordered) (m : LaneNo) :
    ((State.grantFrom fuel last s).laneAt m).ordered := by
  induction fuel generalizing last s with
  | zero => exact hs m
  | succ fuel ih =>
    rcases State.grantFrom_step last s with ⟨t, hgrant, -, heq⟩ | ⟨l, -, -, heq⟩ <;> rw [heq]
    · exact hgrant.ordered hs m
    · refine ih _ fun n => ?_
      by_cases hn : n = l
      · subst hn
        exact State.ordered_laneCommandFailed (s := { s with link := _ }) (hs n)
      · have hlane : (s.passedOn l).laneAt n = s.laneAt n := (LaneFrame.laneCommandFailed l _).lanes n hn
        rw [hlane]
        exact hs n

theorem State.ordered_ordered (s : State) (m : LaneNo) : (s.ordered.laneAt m).ordered := by
  have hfold : ∀ (ls : List LaneNo) (t : State), (m ∈ ls ∨ (t.laneAt m).ordered) →
      ((ls.foldl (fun t l => t.endLaneWith l .aborted) t).laneAt m).ordered := by
    intro ls
    induction ls with
    | nil => exact fun t h => h.resolve_left List.not_mem_nil
    | cons l ls ih =>
      intro t h
      rw [List.foldl_cons]
      refine ih _ ?_
      by_cases hm : m = l
      · exact .inr (hm ▸ t.ordered_endLaneWith l .aborted)
      · rw [(LaneFrame.endLaneWith l t .aborted).lanes m hm]
        exact h.imp_left fun hmem => (List.mem_cons.mp hmem).resolve_left hm
  exact hfold allLanes s (.inl (mem_allLanes m))

theorem State.ordered_abandonAll (s : State) (m : LaneNo) : (s.abandonAll.laneAt m).ordered := by
  have hordered := s.ordered_ordered
  rw [State.abandonAll_eq]
  generalize s.ordered = u at hordered ⊢
  split_ifs
  · exact State.ordered_grantFrom (s := { u with freeDraws := s.freeDraws + 1 }) 5 _ hordered m
  · exact State.ordered_grantFrom 5 _ hordered m

/-! ## Forces -/

theorem State.testRunEnd_aborts (h : s.run.state = .draining ∨ s.run.state = .aborted) (hidle : s.allLanesIdle = true) :
    s.testRunEnd.run.state = .aborted := by
  have hnot : s.run.state ≠ .running := by rcases h with h | h <;> rw [h] <;> decide
  unfold State.testRunEnd
  split_ifs with hdone hdrained
  · exact absurd hdone.1 hnot
  · rfl
  · exact h.resolve_left fun hdraining => hdrained ⟨hdraining, hidle⟩

/-- A force on a DRAINING run. -/
structure Forced (s t : State) : Prop where
  frame : ForceFrame s t
  lanes : ∀ l, (t.laneAt l).ordered
  state : t.run.state = if t.allLanesIdle then .aborted else .draining
  closed : t.run.state = .aborted → t.latches.runDone = true ∧ t.run.summary.notRun = some t.notRunCount
  abandoned : s.canonical = true → s.heldMatches → s.linkServed → LanesAbandoned s t s.run

theorem State.force_forced (h : s.run.state = .draining) : Forced s s.force := by
  have hframe : ForceFrame s s.abandonAll := .abandonAll s
  have hlast : ForceFrame s s.force := hframe.trans (.of_lane (.testRunEnd 0 _) (.testRunEnd _))
  have hopen : ¬ s.over := by
    unfold State.over
    rw [h]
    rintro (h | h) <;> cases h
  have hwell : s.force.closedWell := State.closedWell_testRunEnd (closedWell_laneKept.abandonAll (State.closedWell_of_open hopen))
  have hor := hframe.run.state (.inl h)
  refine ⟨hlast, fun l => ?_, ?_, fun haborted => ?_, fun hcanon hmatches hserved =>
    State.lanesAbandoned_force hcanon ((matched_iff s).mpr hmatches) hserved (by rw [h]; decide)⟩
  · unfold State.force
    rw [State.laneAt_congr (by rw [State.testRunEnd_frame])]
    exact s.ordered_abandonAll l
  · by_cases hidle : s.force.allLanesIdle = true
    · rw [if_pos hidle]
      rw [State.force, State.allLanesIdle_congr (s := s.abandonAll) (by rw [State.testRunEnd_frame])] at hidle
      exact State.testRunEnd_aborts hor hidle
    · rw [if_neg hidle]
      exact (hlast.run.state (.inl h)).resolve_right fun haborted => hidle (hwell (.inr haborted)).1
  · obtain ⟨-, hcount, hdone, -⟩ := hwell (.inr haborted)
    exact ⟨hdone, hcount⟩

/-! ## The two ways to a force (R80 to R82) -/

/-- A running run, or a drain in progress, takes a force with its reason. -/
theorem State.abortForce_forces {reason : AbortReason}
    (h : s.run.state = .running ∨ (s.run.state = .draining ∧ s.run.summary.abortReason = some .drainRequest)) :
    s.abortForce reason =
      ({ s with run := { s.run with state := .draining, summary := { s.run.summary with abortReason := some reason } } }
        : State).force := by
  unfold State.abortForce
  rcases h with h | ⟨h, hreason⟩
  · rw [h]
    rfl
  · rw [h]
    dsimp only
    rw [if_pos hreason]
    rw [← h]
    rfl

theorem State.abortForce_keeps {reason : AbortReason}
    (h : s.run.state ≠ .running) (hreason : s.run.state = .draining → s.run.summary.abortReason ≠ some .drainRequest) :
    s.abortForce reason = s := by
  unfold State.abortForce
  split
  next hrunning => exact absurd hrunning h
  next hdraining => exact if_neg (hreason hdraining)
  next => rfl

end

section
variable {s t : State}

/-- A force is an event on the lanes as the state before it had them. -/
theorem LanesAbandoned.of_start {u : State} {run run' : RunControl} {transfer : Option Transfer} {out : List Byte}
    (hu : u = { s with run := run', transfer := transfer, shiftedOut := out })
    (hmode : run'.summary.mode = s.run.summary.mode) (hnumber : run'.number = s.run.number) (h : LanesAbandoned u t run) :
    LanesAbandoned s t run := by
  have hsame (l : LaneNo) : Elsewhere s u l := by
    subst hu
    exact ⟨rfl, fun _ _ => rfl, fun _ => rfl, hmode, hnumber⟩
  obtain ⟨htaken, hrest⟩ := h
  refine ⟨fun l => EndTaken.of_elsewhere (e := .aborted) (hsame l) (htaken l), ?_⟩
  subst hu
  exact hrest

theorem LanesAbandoned.replied {run : RunControl} (h : LanesAbandoned s t run) (code : Byte) (f : RequestFrame)
    (st : Status) (body : List Byte) : LanesAbandoned s (t.replied code f st body) run := by
  obtain ⟨htaken, hframe, hrun, hexam, hcensus, hlink⟩ := h
  exact ⟨htaken, hframe, hrun.replied code f st body, hexam, hcensus, hlink⟩

end

/-- Settles O46. -/
theorem forceAbandonsEveryLane : Obligations.ForceAbandonsEveryLane := by
  intro s f htakes hlength hmanner
  have hexec {t : State} (hactive : s.run.state.active = true)
      (ht : (if s.run.state = .armed then (s.taken f).abortArmed .forceRequest else (s.taken f).abortForce .forceRequest) = t) :
      exec (.runAbortForce f) s = .next (t.replied 0x41 f .ok
        [byteOf t.run.state.code, byteOf (abortReasonCode t.run.summary.abortReason)]) :=
    exec_of_reply (owner := runAbortOwner) rfl htakes (by omega)
      (runAbortOwner_active (s := s.taken f) hlength hactive (by rw [hmanner]; exact ht))
  refine ⟨fun hforces => ?_, fun harmed => ?_, fun hdraining hreason => ?_, fun hactive => ?_⟩
  · have hactive : s.run.state.active = true := by rcases hforces with h | ⟨h, -⟩ <;> rw [h] <;> rfl
    have hforce := State.abortForce_forces (s := s.taken f) (reason := .forceRequest) hforces
    have hstep := hexec hactive (if_neg fun harmed => by rcases hforces with h | ⟨h, -⟩ <;> rw [harmed] at h <;> cases h)
    rw [hforce] at hstep
    generalize hdraining : ({ s.taken f with run := _ } : State) = u at hstep
    have hforced : Forced u u.force := State.force_forced (by rw [← hdraining])
    have hreason : u.force.run.summary.abortReason = some .forceRequest := by
      rw [hforced.frame.run.reason, ← hdraining]
    generalize u.force = t at hstep hforced hreason
    have hstart : u = { s with
        run := { s.run with state := .draining, summary := { s.run.summary with abortReason := some .forceRequest } }
        transfer := none, shiftedOut := (s.taken f).shiftedOut } := hdraining.symm
    obtain ⟨hcards, htimebase, henables, hsettings, hpending, -, hnumber, hfixture, -, -⟩ := hforced.frame
    refine ⟨_, hstep, hreason, hforced.state, hforced.closed, hforced.lanes, hcards.trans (by rw [hstart]),
      hnumber.trans (by rw [hstart]), hfixture.trans (by rw [hstart]), htimebase.trans (by rw [hstart]),
      henables.trans (by rw [hstart]), hsettings.trans (by rw [hstart]), hpending.trans (by rw [hstart]),
      fun hcanon hmatches hserved => ?_, ?_⟩
    · have habandoned := hforced.abandoned (by rw [hstart]; exact hcanon) (by rw [hstart]; exact hmatches)
        (by rw [hstart]; exact hserved)
      rw [show u.run = _ from congrArg State.run hstart] at habandoned
      exact (habandoned.of_start hstart rfl rfl).replied _ _ _ _
    · rw [State.port_replied, hreason]
      rfl
  · exact ⟨_, hexec (by rw [harmed]; rfl) (if_pos harmed), rfl, rfl, ⟨rfl, rfl⟩,
      ⟨rfl, rfl, rfl, rfl, rfl⟩, ⟨rfl, rfl, rfl, rfl, rfl⟩,
      rfl, rfl⟩
  · have hkeeps := State.abortForce_keeps (s := s.taken f) (reason := .forceRequest)
      (show s.run.state ≠ .running by rw [hdraining]; decide) fun _ => hreason
    rw [hexec (by rw [hdraining]; rfl) ((if_neg (by rw [hdraining]; decide)).trans hkeeps), show (s.taken f).run = s.run from rfl,
      hdraining]
    rfl
  · exact exec_of_reply rfl htakes (by omega) (runAbortOwner_notActive (s := s.taken f) hlength hactive)

theorem State.fixtureChanged_opened (s : State) :
    s.fixtureChanged .opened =
      ({ s with run := { s.run with fixture := .opened, filterTimer := none } } : State).abortForce .fixtureOpen := rfl

theorem State.fixtureChanged_closed_kept {s : State} (h : s.run.state ≠ .armed) :
    s.fixtureChanged .closed = { s with run := { s.run with fixture := .closed, filterTimer := none } } := if_neg h

/-- Settles O48. -/
theorem filteredFixtureActsOnRun : Obligations.FilteredFixtureActsOnRun := by
  intro s ticks hticks changed
  have hstep := exec_fxcFilterExpiry hticks
  refine ⟨fun hkept => ?_, fun harmed hhigh => ?_, fun hforces hlow => ?_⟩
  · refine hstep.trans (congrArg _ ?_)
    show s.fixtureChanged (fixtureOf s.run.rawHigh) =
      { s with run := { s.run with fixture := fixtureOf s.run.rawHigh, filterTimer := none } }
    cases hhigh : s.run.rawHigh with
    | true =>
      refine State.fixtureChanged_closed_kept fun harmed => ?_
      rw [harmed] at hkept
      rcases hkept with h | ⟨h, -⟩ | ⟨h, -⟩ <;> cases h
    | false =>
      rw [hhigh] at hkept
      refine (State.fixtureChanged_opened s).trans (State.abortForce_keeps ?_ fun hdraining => ?_)
      · show s.run.state ≠ .running
        intro hrunning
        rw [hrunning] at hkept
        rcases hkept with h | ⟨h, -⟩ | ⟨h, -⟩ <;> cases h
      · have hdraining : s.run.state = .draining := hdraining
        rw [hdraining] at hkept
        rcases hkept with h | ⟨-, h⟩ | ⟨-, -, h⟩
        · cases h
        · cases h
        · exact h
  · have hchanged : s.fixtureChanged (fixtureOf s.run.rawHigh) =
        ({ s with run := { s.run with fixture := fixtureOf s.run.rawHigh, filterTimer := none } }
          : State).runningNow.testRunEnd := by
      rw [← State.enterRunning_eq, hhigh]
      exact if_pos harmed
    rw [hchanged] at hstep
    refine ⟨_, hstep, .of_testRunEnd (by rfl) (by rfl), State.exam_testRunEnd _, ⟨State.steps_testRunEnd _,
        State.nails_testRunEnd _⟩,
      ?_, ?_, ?_⟩
    · exact SameLinks.trans (t := State.runningNow _) ⟨rfl, rfl, rfl, rfl, rfl⟩ (.testRunEnd _)
    · exact SameSettings.trans (t := State.runningNow _) ⟨rfl, rfl, rfl, rfl, rfl⟩ (.testRunEnd _)
    · rw [State.testRunEnd_frame]
      exact ⟨rfl, rfl, rfl⟩
  · have hopened : fixtureOf s.run.rawHigh = .opened := by rw [hlow]; rfl
    have hforce := State.abortForce_forces (s := { s with run := changed }) (reason := .fixtureOpen) hforces
    have hchanged : s.fixtureChanged (fixtureOf s.run.rawHigh) = State.abortForce { s with run := changed } .fixtureOpen := by
      simp only [changed, hopened]
      exact State.fixtureChanged_opened s
    rw [hchanged, hforce] at hstep
    generalize hdraining : ({ s with run := _ } : State) = u at hstep
    have hforced : Forced u u.force := State.force_forced (by rw [← hdraining])
    have hreason : u.force.run.summary.abortReason = some .fixtureOpen := by
      rw [hforced.frame.run.reason, ← hdraining]
    generalize u.force = t at hstep hforced hreason
    have hstart : u = { s with
        run := { changed with state := .draining, summary := { s.run.summary with abortReason := some .fixtureOpen } }
        transfer := s.transfer, shiftedOut := s.shiftedOut } := hdraining.symm
    obtain ⟨hcards, htimebase, henables, hsettings, hpending, hport, -, hfixture, htimer, -⟩ := hforced.frame
    refine ⟨_, hstep, hfixture.trans ?_, htimer.trans (by rw [hstart]), hreason, hforced.state, hforced.lanes,
      fun hcanon hmatches hserved => ?_, hcards.trans (by rw [hstart]), htimebase.trans (by rw [hstart]),
      henables.trans (by rw [hstart]), hsettings.trans (by rw [hstart]), hpending.trans (by rw [hstart]), ?_⟩
    · rw [hstart]
      exact hopened
    · have habandoned := hforced.abandoned (by rw [hstart]; exact hcanon) (by rw [hstart]; exact hmatches)
        (by rw [hstart]; exact hserved)
      rw [show u.run = _ from congrArg State.run hstart] at habandoned
      exact habandoned.of_start hstart rfl rfl
    · rw [hstart] at hport
      exact hport

end Sys2Proof.Machine
end

section
/-! CERTIFICATE. A command that fails takes its card OFFLINE (R162): the notices, the lane or the census that asked for it, and
the grants that follow. -/

namespace Sys2Proof.Machine

section
variable {s t u o p : State} {l m : LaneNo} {c : CardNo} {k : Slot} {r : StepRecord}

/-! ## Offline notices (R126) -/

/-- The card OFFLINE and the latch set, before any lane has its notice. -/
def State.offlined (s : State) (c : CardNo) (entry : CardEntry) : State := (s.setCard c entry).latch .cardOffline

/-- A lane's record names a nail on a card. -/
def State.namesCard (s : State) (c : CardNo) (l : LaneNo) : Bool := (s.heldNails l).any (fun e => decide (cardOf e.2 = c))

theorem State.namesCard_of_heldBy (h : s.heldBy l = some (k, r)) (c : CardNo) :
    s.namesCard c l = r.program.nails.toList.any (fun n => decide (cardOf n = c)) := by
  unfold State.namesCard NailList.toList
  rw [State.heldNails_of_heldBy h, List.any_map]
  rfl

theorem State.cardOffline_eq (s : State) (c : CardNo) :
    s.cardOffline c = allLanes.foldl (fun t l => if t.namesCard c l then t.endLaneWith l .matrixFault else t)
      (s.offlined c { s.cardAt c with state := .offline }) := rfl

theorem State.cardOffline_taken (hcanon : s.canonical = true) (hs : Matched s) (c : CardNo) :
    Ordered (s.offlined c { s.cardAt c with state := .offline }) (s.cardOffline c) .matrixFault
      (allLanes.filter (fun l => s.namesCard c l)).reverse := by
  have hs' : Matched (s.offlined c { s.cardAt c with state := .offline }) := matched_laneKept.sameTables hs
  have hnames (t : State) (l : LaneNo) (h : Elsewhere (s.offlined c { s.cardAt c with state := .offline }) t l) :
      t.namesCard c l = s.namesCard c l := by
    unfold State.namesCard State.heldNails
    rw [h.heldBy]
    rfl
  have h := Ordered.foldl (e := .matrixFault) hs' hnames allLanes [] _ allLanes_nodup (fun _ _ => List.not_mem_nil)
    (.nil hcanon hs')
  rw [List.append_nil] at h
  rw [State.cardOffline_eq]
  exact h

theorem State.mem_notified (s : State) (c : CardNo) (m : LaneNo) :
    m ∈ (allLanes.filter (fun l => s.namesCard c l)).reverse ↔ s.namesCard c m = true := by
  rw [List.mem_reverse, List.mem_filter]
  exact and_iff_right (mem_allLanes m)

/-! ## What stays for the grants -/

theorem SameButGrant.of_elsewhere (h : Elsewhere s t l) (g : SameButGrant t u l) : SameButGrant s u l := by
  obtain ⟨hlane, hslots⟩ := g
  unfold GrantedLane at hlane
  rw [h.lane] at hlane hslots
  exact ⟨hlane, fun k hk => (hslots k hk).trans (h.slots k hk)⟩

/-- A lane that an end does not concern. -/
theorem EndTaken.elsewhere {e : PendingEnd} {a b : Nat} (hcourse : Course s t a b) (honce : (s.laneAt l).endsAtOnce = false)
    (hclosing : (s.laneAt l).phase ≠ .closing) (h : EndTaken s t l e) : Elsewhere s t l := by
  unfold EndTaken at h
  rw [honce, if_neg Bool.false_ne_true, if_neg hclosing] at h
  exact ⟨h.2, h.1, fun n => (hcourse.frame.2.1 n).1, hcourse.mode, hcourse.number⟩

theorem Lane.endsAtOnce_of_releasing {v : Lane} (h : v.phase = .releasing) : v.endsAtOnce = false := by
  simp [Lane.endsAtOnce, h, LanePhase.underway]

/-- A lane that holds a slot after a course held it before. -/
theorem Course.slot_before {a b : Nat} (ht : Matched t) (h : Course s t a b) (hslot : (t.laneAt l).heldSlot = some k) :
    (s.laneAt l).heldSlot = some k := by
  rw [← h.lanes.slot l (ht.busy_of_slot hslot)]
  exact hslot

/-! ## The course of a failure at a lane -/

/-- The lanes of an event that took a card OFFLINE for a lane's command: `b` is the state with the card OFFLINE, `o` that after
the notices, `p` that after the failure at the lane, and `t` that after the grants. -/
structure FailedAt (b o p t : State) (l : LaneNo) (c : CardNo) : Prop where
  start : Matched b
  ordered : Ordered b o .matrixFault (allLanes.filter (fun m => b.namesCard c m)).reverse
  matched : Matched p
  others : ∀ m, m ≠ l → Elsewhere o p m
  slots : ∀ j, (o.laneAt l).heldSlot ≠ some j → p.slotAt j = o.slotAt j
  failed : FailedLane o p l
  settled : ¬ p.doomed l
  course : ∃ a d, Course o p a d
    ∧ d = if (o.laneAt l).phase = .closing then ((o.laneAt l).pendingEnd.getD .matrixFault).aborts else 0
  sound : (∀ m, (b.laneAt m).endSound) → ∀ m, (p.laneAt m).endSound
  grants : Grants p t
  final : Matched t

/-- A lane whose command is in flight is not concerned by a notice, but for its pending end. -/
theorem Lane.endsAtOnce_of_closing {v : Lane} (hclosing : v.phase = .closing) (hflight : v.linkRequest = .inFlight) :
    v.endsAtOnce = false := by
  simp [Lane.endsAtOnce, hclosing, hflight]

namespace FailedAt

variable {b : State}

theorem notified (h : FailedAt b o p t l c) (hm : b.namesCard c m = true) : EndTaken b o m .matrixFault :=
  h.ordered.taken m ((b.mem_notified c m).mpr hm)

theorem unnotified (h : FailedAt b o p t l c) (hm : b.namesCard c m = false) : Elsewhere b o m :=
  h.ordered.others m fun hmem => by
    rw [(b.mem_notified c m).mp hmem] at hm
    cases hm

theorem cards_eq (h : FailedAt b o p t l c) : p.cards = o.cards ∧ t.cards = p.cards := by
  obtain ⟨a, d, hcourse, -⟩ := h.course
  obtain ⟨a', d', hcourse', -⟩ := h.grants.course
  exact ⟨hcourse.cards, hcourse'.cards⟩

theorem timebase_eq (h : FailedAt b o p t l c) : p.timebase = o.timebase ∧ t.timebase = p.timebase := by
  obtain ⟨a, d, hcourse, -⟩ := h.course
  obtain ⟨a', d', hcourse', -⟩ := h.grants.course
  exact ⟨hcourse.timebase, hcourse'.timebase⟩

/-- Until the grants, a RELEASING lane, and one without a nail on the card, stays as it was. -/
theorem untouched (h : FailedAt b o p t l c) (hm : m ≠ l) (hkept : b.namesCard c m = false ∨ (b.laneAt m).phase = .releasing) :
    Elsewhere b p m := by
  refine Elsewhere.trans ?_ (h.others m hm)
  cases hnames : b.namesCard c m with
  | false => exact h.unnotified hnames
  | true =>
    have hreleasing := hkept.resolve_left (by rw [hnames]; decide)
    exact (h.notified hnames).elsewhere h.ordered.course (Lane.endsAtOnce_of_releasing hreleasing) (by rw [hreleasing]; decide)

theorem idle (h : FailedAt b o p t l c) (hfree : b.heldBy m = none) : t.laneAt m = b.laneAt m := by
  have hidle : (b.laneAt m).phase = .idle := by
    by_contra hbusy
    obtain ⟨k, r, hheld⟩ := h.start.heldBy hbusy
    rw [hfree] at hheld
    cases hheld
  obtain ⟨a, d, hcourse, -⟩ := h.course
  obtain ⟨a', d', hcourse', -⟩ := h.grants.course
  rw [h.start.clean m hidle, h.final.clean m (hcourse'.lanes.idle (hcourse.lanes.idle (h.ordered.course.lanes.idle hidle)))]

theorem releasing (h : FailedAt b o p t l c) (hm : m ≠ l) (hheld : b.heldBy m = some (k, r))
    (hphase : (b.laneAt m).phase = .releasing) :
    LaneSameButGrant b t m
      ∨ ((b.laneAt m).linkRequest = .waiting
        ∧ (r.program.nails.entries[(b.laneAt m).openPosition - 1]?).any (fun e => t.nailOnline e.2) = false
        ∧ SlotHeldOrResolved b t m k (b.slotAt k).runMark r
        ∧ OpeningFrom t m r.program.nails.entries ((b.laneAt m).openPosition - 1) (b.laneAt m)) := by
  have hsame := h.untouched hm (.inr hphase)
  rcases h.grants.lanes m with hgrant | ⟨hdoomed, hfailed⟩
  · obtain ⟨hlane, hslots⟩ := hgrant.of_elsewhere hsame
    exact .inl ⟨hslots, hlane⟩
  · obtain ⟨hrecord, hopening⟩ := (hfailed.of_elsewhere hsame).2 k r hphase hheld
    refine .inr ⟨hsame.lane ▸ hdoomed.1, ?_, hrecord, hopening⟩
    have hcommand := State.laneCommand_of_releasing (hsame.heldBy.trans hheld) (hsame.lane ▸ hphase)
    rw [hsame.lane] at hcommand
    cases hentry : r.program.nails.entries[(b.laneAt m).openPosition - 1]? with
    | none => rfl
    | some e =>
      rw [hentry] at hcommand
      refine Bool.eq_false_iff.mpr fun honline => hdoomed.2 ⟨_, hcommand, ?_⟩
      rw [← State.cardAt_congr h.cards_eq.2]
      exact (State.nailOnline_iff t e.2).mp honline

/-- The slot of a lane that the failures do not concern. -/
theorem slot_kept (h : FailedAt b o p t l c) (hm : m ≠ l) (hslot : (b.laneAt m).heldSlot = some k) : p.slotAt k = o.slotAt k :=
  h.slots k fun hl => h.start.slot_ne hm hslot (h.ordered.course.slot_before h.ordered.matched hl)

theorem slot_granted (h : FailedAt b o p t l c) (hsettled : ¬ p.doomed m) (hslot : (b.laneAt m).heldSlot = some k) :
    t.slotAt k = p.slotAt k := by
  obtain ⟨a, d, hcourse, -⟩ := h.course
  refine h.grants.slots k fun x hx hxslot => ?_
  have hne : m ≠ x := fun heq => hsettled (heq ▸ hx)
  exact h.start.slot_ne hne hslot ((h.ordered.course.trans hcourse).slot_before h.matched hxslot)

theorem endedAtOnce (h : FailedAt b o p t l c) (hm : m ≠ l) (hnames : b.namesCard c m = true)
    (honce : (b.laneAt m).endsAtOnce = true) : StepEndedBy b t m .matrixFault := by
  have htaken := h.notified hnames
  unfold EndTaken at htaken
  rw [honce, if_pos rfl] at htaken
  have hsame := h.others m hm
  have hsettled : ¬ p.doomed m := fun hdoomed => by
    have hnot := (h.ordered.doomed m (hsame.doomed h.cards_eq.1 hdoomed)).2 ((b.mem_notified c m).mpr hnames)
    rw [honce] at hnot
    cases hnot
  obtain ⟨hlane, -⟩ := (h.grants.lanes m).resolve_right fun hand => hsettled hand.1
  have hfailed : StepEndedBy b p m .matrixFault :=
    StepEndedBy.stable (.inl hsame.lane) (fun k hk => h.slot_kept hm hk) h.cards_eq.1 h.timebase_eq.1 htaken
  exact hfailed.stable hlane (fun k hk => h.slot_granted hsettled hk) h.cards_eq.2 h.timebase_eq.2

theorem pending (h : FailedAt b o p t l c) (hm : m ≠ l) (hheld : b.heldBy m = some (k, r)) (hnames : b.namesCard c m = true)
    (hreleasing : (b.laneAt m).phase ≠ .releasing) (honce : (b.laneAt m).endsAtOnce = false) :
    t.laneAt m = { b.laneAt m with pendingEnd := some ((b.laneAt m).pendingEnd.getD .matrixFault) }
      ∧ t.slotAt k = b.slotAt k := by
  obtain ⟨hslot, -⟩ := (State.heldBy_eq_some b m k r).mp hheld
  have hbusy := h.start.busy_of_slot hslot
  have hclosing : (b.laneAt m).phase = .closing ∧ (b.laneAt m).linkRequest = .inFlight := by
    cases hphase : (b.laneAt m).phase with
    | idle => exact absurd hphase hbusy
    | releasing => exact absurd hphase hreleasing
    | closing => exact ⟨rfl, by simpa [Lane.endsAtOnce, hphase, LanePhase.underway] using honce⟩
    | settling | measuring => simp [Lane.endsAtOnce, hphase, LanePhase.underway] at honce
  obtain ⟨hphase, hflight⟩ := hclosing
  have htaken := h.notified hnames
  unfold EndTaken at htaken
  rw [honce, if_neg Bool.false_ne_true, if_pos hphase] at htaken
  obtain ⟨hkept, hlane⟩ := htaken
  have hsame := h.others m hm
  have hlane' := hsame.lane.trans hlane
  have hnot : (p.laneAt m).linkRequest ≠ .waiting := by
    rw [hlane', hflight]
    decide
  obtain ⟨hgranted, -⟩ := (h.grants.lanes m).resolve_right fun hand => hnot hand.1.1
  exact ⟨(hgranted.kept hnot).trans hlane', (h.slot_granted (fun hdoomed => hnot hdoomed.1) hslot).trans
    ((h.slot_kept hm hslot).trans (hkept k hslot))⟩

theorem waiting (h : FailedAt b o p t l c) (hm : m ≠ l) (hheld : b.heldBy m = some (k, r)) (hnames : b.namesCard c m = false)
    (hphase : (b.laneAt m).phase = .closing)
    (honline : (r.program.nails.entries[(b.laneAt m).closedCount]?).any (fun e => t.nailOnline e.2) = true) :
    LaneSameButGrant b t m := by
  have hsame := h.untouched hm (.inl hnames)
  have hcommand := State.laneCommand_of_closing (hsame.heldBy.trans hheld) (hsame.lane ▸ hphase)
  rw [hsame.lane] at hcommand
  have hsettled : ¬ p.doomed m := by
    cases hentry : r.program.nails.entries[(b.laneAt m).closedCount]? with
    | none =>
      rw [hentry] at honline
      cases honline
    | some e =>
      rw [hentry] at honline hcommand
      refine fun hdoomed => hdoomed.2 ⟨_, hcommand, ?_⟩
      rw [← State.cardAt_congr h.cards_eq.2]
      exact (State.nailOnline_iff t e.2).mp honline
  obtain ⟨hlane, hslots⟩ := ((h.grants.lanes m).resolve_right fun hand => hsettled hand.1).of_elsewhere hsame
  exact ⟨hslots, hlane⟩

theorem resting (h : FailedAt b o p t l c) (hm : m ≠ l) (hnames : b.namesCard c m = false)
    (hrequest : (b.laneAt m).linkRequest ≠ .waiting) : LaneSame b t m := by
  have hsame := h.untouched hm (.inl hnames)
  have hnot : (p.laneAt m).linkRequest ≠ .waiting := by rw [hsame.lane]; exact hrequest
  obtain ⟨hlane, hslots⟩ := (h.grants.lanes m).resolve_right fun hand => hnot hand.1.1
  rw [hsame.lane] at hslots
  exact ⟨(hlane.kept hnot).trans hsame.lane, fun k hk => (hslots k hk).trans (hsame.slots k hk)⟩

/-! ### The lane whose command failed -/

/-- The notice to the lane itself sets its pending end at most. -/
theorem own_noticed (h : FailedAt b o p t l c) (hphase : (b.laneAt l).phase = .closing)
    (hflight : (b.laneAt l).linkRequest = .inFlight) :
    (∃ pending, o.laneAt l = { b.laneAt l with pendingEnd := pending }
        ∧ pending.getD .matrixFault = (b.laneAt l).pendingEnd.getD .matrixFault)
      ∧ ∀ k ∈ (b.laneAt l).heldSlot, o.slotAt k = b.slotAt k := by
  cases hnames : b.namesCard c l with
  | false =>
    have hsame := h.unnotified hnames
    exact ⟨⟨(b.laneAt l).pendingEnd, hsame.lane, rfl⟩, hsame.slots⟩
  | true =>
    have htaken := h.notified hnames
    unfold EndTaken at htaken
    rw [Lane.endsAtOnce_of_closing hphase hflight, if_neg Bool.false_ne_true, if_pos hphase] at htaken
    exact ⟨⟨_, htaken.2, rfl⟩, htaken.1⟩

theorem own_closing (h : FailedAt b o p t l c) (hphase : (b.laneAt l).phase = .closing)
    (hflight : (b.laneAt l).linkRequest = .inFlight) :
    StepEndedBy b t l ((b.laneAt l).pendingEnd.getD .matrixFault).verdict := by
  obtain ⟨⟨pending, hlane, hend⟩, hslots⟩ := h.own_noticed hphase hflight
  have hheld : o.heldBy l = b.heldBy l := by
    unfold State.heldBy
    rw [hlane]
    dsimp only
    cases hk : (b.laneAt l).heldSlot with
    | none => rfl
    | some k =>
      have hrecord : o.recordAt k = b.recordAt k := congrArg StepSlot.record (hslots k hk)
      dsimp only
      rw [hrecord]
  have hended := h.failed.1 (by rw [hlane]; exact hphase)
  rw [show (o.laneAt l).pendingEnd = pending from by rw [hlane], hend] at hended
  have hcourse := h.ordered.course
  have hended' := hended.congr_left hheld (fun n => (hcourse.frame.2.1 n).1) hcourse.mode hcourse.number
    ⟨_, _, pending, _, _, _, hlane⟩
  obtain ⟨hgranted, -⟩ := (h.grants.lanes l).resolve_right fun hand => h.settled hand.1
  exact hended'.stable hgranted (fun k hk => h.slot_granted h.settled hk) h.cards_eq.2 h.timebase_eq.2

theorem own_releasing (h : FailedAt b o p t l c) (hheld : b.heldBy l = some (k, r)) (hphase : (b.laneAt l).phase = .releasing) :
    SlotHeldOrResolved b t l k (b.slotAt k).runMark r
      ∧ OpeningFrom t l r.program.nails.entries ((b.laneAt l).openPosition - 1) (b.laneAt l) := by
  have hsame : Elsewhere b o l := by
    cases hnames : b.namesCard c l with
    | false => exact h.unnotified hnames
    | true =>
      exact (h.notified hnames).elsewhere h.ordered.course (Lane.endsAtOnce_of_releasing hphase) (by rw [hphase]; decide)
  obtain ⟨hgranted, -⟩ := (h.grants.lanes l).resolve_right fun hand => h.settled hand.1
  have hfailed := (h.failed.of_elsewhere hsame).stable hgranted (fun k hk => h.slot_granted h.settled hk) h.cards_eq.2
    h.timebase_eq.2
  exact hfailed.2 k r hphase hheld

/-! ### The counts -/

/-- The whole event is a course; its ABORTED verdict is the pending end of the lane whose command failed. -/
theorem whole (h : FailedAt b o p t l c) :
    ∃ a d, Course b t a d
      ∧ ((∀ m, (b.laneAt m).endSound) → (b.laneAt l).linkRequest = .inFlight →
        d = if (b.laneAt l).pendingEnd = some .aborted then 1 else 0) := by
  obtain ⟨a, d, hcourse, hd⟩ := h.course
  obtain ⟨a', d', hcourse', hd'⟩ := h.grants.course
  refine ⟨_, _, (h.ordered.course.trans hcourse).trans hcourse', fun hsound hflight => ?_⟩
  rw [hd' (h.sound hsound), hd]
  simp only [PendingEnd.aborts, Nat.mul_zero, Nat.zero_add, Nat.add_zero]
  cases hphase : (b.laneAt l).phase with
  | closing =>
    obtain ⟨⟨pending, hlane, hend⟩, -⟩ := h.own_noticed hphase hflight
    rw [hlane, if_pos hphase]
    dsimp only
    rw [hend]
    rcases hpending : (b.laneAt l).pendingEnd with _ | _ | _ <;> rfl
  | idle | settling | measuring | releasing =>
    have hnone : (b.laneAt l).pendingEnd = none := (hsound l).none (by rw [hphase]; decide)
    have hother : (o.laneAt l).phase ≠ .closing := fun hclosing => by
      have hunder := h.ordered.course.lanes.phase l
      rcases hunder with heq | ⟨-, heq | heq⟩ <;> rw [hclosing] at heq
      · rw [hphase] at heq; cases heq
      · cases heq
      · cases heq
    rw [hnone, if_neg hother]
    rfl

end FailedAt

end

end Sys2Proof.Machine
end

section
/-! CERTIFICATE. The failure of a sent command (R162), by a second PARITY or by the acknowledgement timer. -/

namespace Sys2Proof.Machine

section
variable {s t v : State} {l m : LaneNo} {c : CardNo} {k : Slot} {r : StepRecord}

/-! ## A failed command of a lane -/

theorem Course.freed (s : State) : Course s s.freeLink 0 0 :=
  .of_requests (fun _ => rfl) (fun _ => rfl) (fun _ => rfl) ⟨_, _, _, s.freeDraws, rfl⟩

theorem FailedAt.of_failure (hcanon : v.canonical = true) (hs : Matched v) (l : LaneNo) (c : CardNo) :
    FailedAt (v.offlined c { v.cardAt c with state := .offline }) (v.cardOffline c)
        ((v.cardOffline c).laneCommandFailed l).freeLink
      (((v.cardOffline c).laneCommandFailed l).freeLink).arbitrate l c := by
  have hordered := State.cardOffline_taken hcanon hs c
  generalize hoffline : v.cardOffline c = o at hordered
  have hframe := LaneFrame.laneCommandFailed l o
  obtain ⟨hfailed, a, d, hcourse, hd⟩ := State.laneCommandFailed_fails hordered.canonical hordered.matched l
  have hmatched : Matched (o.laneCommandFailed l).freeLink :=
    matched_laneKept.sameTables (matched_laneKept.laneCommandFailed hordered.matched)
  have hcanon' : (o.laneCommandFailed l).freeLink.canonical = true := State.canonical_laneCommandFailed hordered.canonical l
  refine
    { start := matched_laneKept.sameTables hs
      ordered := hordered
      matched := hmatched
      others := fun m hm => ⟨hframe.lanes m hm, fun k hk => State.slotAt_laneCommandFailed_other (hordered.matched.slot_ne hm hk),
        fun n => (hcourse.frame.2.1 n).1, hcourse.mode, hcourse.number⟩
      slots := fun j hj => State.slotAt_laneCommandFailed_other hj
      failed := hfailed
      settled := o.laneCommandFailed_settled l
      course := ⟨_, _, hcourse.trans (.freed _), hd⟩
      sound := fun hsound => ?_
      grants := .arbitrate hcanon' hmatched
      final := matched_laneKept.arbitrate hmatched }
  have hkept := pendingEnds_holdKept.laneCommandFailed (l := l) (pendingEnds_holdKept.cardOffline c ⟨⟨hcanon, hs⟩, hsound⟩)
  rw [hoffline] at hkept
  exact hkept.2

/-- A failed command of a lane, told of the state before the card's flag was set. -/
theorem FailedAt.offlineTaken {b o p : State} {cards : Vector CardEntry 16} (h : FailedAt b o p t l c)
    (hb : b = { s with cards := cards, latches := s.latches.add .cardOffline }) (hflight : (s.laneAt l).linkRequest = .inFlight) :
    OfflineTaken s t l c := by
  obtain ⟨a, d, hcourse, hd⟩ := h.whole
  subst hb
  have hnames {m : LaneNo} {k : Slot} {r : StepRecord} (hheld : s.heldBy m = some (k, r)) :=
    State.namesCard_of_heldBy (s := { s with cards := cards, latches := s.latches.add .cardOffline }) hheld c
  refine ⟨?_, fun m hm => ?_, hcourse.frame, fun hsound => ?_, hcourse.exam, hcourse.census⟩
  · split
    next hphase =>
      rw [PendingEnd.verdict_getD]
      exact h.own_closing hphase hflight
    next k r hphase hheld => exact h.own_releasing hheld hphase
    next => trivial
  · cases hheld : s.heldBy m with
    | none => exact h.idle hheld
    | some kr =>
      obtain ⟨k, r⟩ := kr
      dsimp only
      split_ifs with hreleasing hnamed honce hwaits
      · exact h.releasing hm hheld hreleasing
      · exact h.endedAtOnce hm ((hnames hheld).trans hnamed) honce
      · exact h.pending hm hheld ((hnames hheld).trans hnamed) hreleasing ((Bool.not_eq_true _).mp honce)
      · exact h.waiting hm hheld ((hnames hheld).trans (by simpa using hnamed))
      · exact h.resting hm ((hnames hheld).trans (by simpa using hnamed)) hwaits
  · have hcount : (s.run.countingMany .matrixFault
          (leftCount s t - if (s.laneAt l).pendingEnd = some .aborted then 1 else 0)).countingMany .aborted
        (if (s.laneAt l).pendingEnd = some .aborted then 1 else 0) = s.run.countingEnds a d := by
      have hleft : a + d = leftCount s t := hcourse.left
      have hd' : d = if (s.laneAt l).pendingEnd = some .aborted then 1 else 0 := hd hsound hflight
      rw [← hd', ← hleft, Nat.add_sub_cancel]
      rfl
    have hrun : if SomeIdled s t then RunEndTested (s.run.countingEnds a d) (s.latches.add .cardOffline) t
        else t.run = s.run.countingEnds a d ∧ t.latches = s.latches.add .cardOffline := hcourse.run
    rw [← hcount] at hrun
    exact hrun

/-! ## A failed command of the census -/

theorem State.censusNext_freeLink {x : Census} (h : s.census = some x) : s.censusNext.freeLink = s.freeLink.censusNext := by
  cases hrest : x.remaining with
  | nil => rw [State.censusNext_ends h hrest, State.censusNext_ends (s := s.freeLink) h hrest]; rfl
  | cons next rest => rw [State.censusNext_goes_on h hrest, State.censusNext_goes_on (s := s.freeLink) h hrest]; rfl

/-! ## What every failure leaves -/

/-- The failure of a sent command after its card's flag has been set. -/
def State.failedCommand (v : State) (c : CardNo) (rank : Fin 5) : State :=
    ((v.cardOffline c).commandFailed rank).freeLink.arbitrate

theorem State.failedCommand_lane (v : State) (c : CardNo) (l : LaneNo) :
    v.failedCommand c (rankOfLane l) = (((v.cardOffline c).laneCommandFailed l).freeLink).arbitrate := by
  unfold State.failedCommand State.commandFailed
  rw [laneOfRank_rankOfLane]

theorem State.failedCommand_census (v : State) (c : CardNo) :
    v.failedCommand c 4 = (((v.cardOffline c).censusNext).freeLink).arbitrate := rfl

theorem ArbiterFrame.freeLink (s : State) : ArbiterFrame s s.freeLink := .of_link s _

/-- What a failed command leaves as it was, at its requester and in the grants. -/
structure FailureFrame (s t : State) : Prop where
  cards : t.cards = s.cards
  latch : s.latches.cardOffline = true → t.latches.cardOffline = true
  settings : SameSettings s t
  port : SamePort s t

theorem FailureFrame.commandFailed (s : State) (rank : Fin 5) : FailureFrame s (s.commandFailed rank) := by
  unfold State.commandFailed
  split
  · rename_i l _
    have h := LaneFrame.laneCommandFailed l s
    exact ⟨h.cards, h.latches .cardOffline, h.settings, h.port⟩
  · refine ⟨by rw [State.censusNext_frame], ?_, by rw [State.censusNext_frame]; exact ⟨rfl, rfl, rfl, rfl, rfl⟩,
      by rw [State.censusNext_frame]; exact ⟨rfl, rfl, rfl⟩⟩
    intro h
    unfold State.censusNext
    split
    · exact h
    · split <;> exact h

theorem FailureFrame.trans {u : State} (h : FailureFrame s t) (g : FailureFrame t u) : FailureFrame s u := by
  refine ⟨g.cards.trans h.cards, fun hs => g.latch (h.latch hs), h.settings.trans g.settings, ?_⟩
  obtain ⟨hport, htransfer, hout⟩ := h.port
  obtain ⟨hport', htransfer', hout'⟩ := g.port
  exact ⟨hport'.trans hport, htransfer'.trans htransfer, hout'.trans hout⟩

theorem FailureFrame.granted (s : State) : FailureFrame s s.freeLink.arbitrate := by
  have h := (ArbiterFrame.freeLink s).trans (.arbitrate _)
  exact ⟨h.cards, h.latches .cardOffline, h.settings, h.port⟩

theorem State.failedCommand_frame (v : State) (c : CardNo) (rank : Fin 5) :
    FailureFrame (v.offlined c { v.cardAt c with state := .offline }) (v.failedCommand c rank) := by
  have h := v.cardOffline_frame c
  exact FailureFrame.trans (t := v.cardOffline c) ⟨h.cards, fun _ => h.latch, h.settings, h.port⟩
    ((FailureFrame.commandFailed _ rank).trans (.granted _))

theorem State.not_closing_grantFrom (fuel : Nat) (last : Fin 5) (h : (s.laneAt m).phase ≠ .closing) :
    ((State.grantFrom fuel last s).laneAt m).phase ≠ .closing := by
  induction fuel generalizing last s with
  | zero => exact h
  | succ fuel ih =>
    rcases State.grantFrom_step last s with ⟨t, hgrant, -, heq⟩ | ⟨l, -, -, heq⟩ <;> rw [heq]
    · rcases hgrant.lanes m with heq | ⟨-, heq⟩ <;> rw [heq] <;> exact h
    · refine ih _ ?_
      by_cases hm : m = l
      · rw [hm]
        exact State.phase_laneCommandFailed _ l
      · rw [show (s.passedOn l).laneAt m = s.laneAt m from (LaneFrame.laneCommandFailed l _).lanes m hm]
        exact h

theorem State.phase_failedCommand (v : State) (c : CardNo) (l : LaneNo) :
    ((v.failedCommand c (rankOfLane l)).laneAt l).phase ≠ .closing := by
  have hphase := State.phase_laneCommandFailed (v.cardOffline c) l
  rw [State.failedCommand_lane]
  generalize (v.cardOffline c).laneCommandFailed l = p at hphase
  exact State.not_closing_grantFrom (s := p.freeLink) 5 _ hphase

/-- A failed command of the census, while every lane is IDLE. -/
theorem State.failedCommand_of_idle {x : Census} (hidle : v.allLanesIdle = true) (hcensus : v.census = some x) :
    v.failedCommand c 4 = (v.offlined c { v.cardAt c with state := .offline }).freeLink.censusNext.arbitrate := by
  rw [State.failedCommand_census, State.cardOffline_of_idle hidle]
  exact congrArg State.arbitrate
    (State.censusNext_freeLink (s := v.offlined c { v.cardAt c with state := .offline }) hcensus)

/-- The events that fail a sent command. -/
theorem exec_failedCommand {f : InFlight} {i : Instr} {flagged : CardEntry} (hflight : s.link.inFlight = some f)
    (hcard : f.command.card = c)
    (hi : (i = .parity c ∧ f.resent = true ∧ flagged = { s.cardAt c with paritySeen := true })
      ∨ (i = .ackTimeout ∧ f.command.isIdentify = false ∧ flagged = { s.cardAt c with timeoutSeen := true })) :
    exec i s = .next ((s.setCard c flagged).failedCommand c f.requester) := by
  rcases hi with ⟨rfl, hresent, rfl⟩ | ⟨rfl, hidentify, rfl⟩
  · show Host.Outcome.next (s.parityAnswered c) = _
    unfold State.parityAnswered
    rw [hflight]
    dsimp only
    rw [if_pos hcard, if_pos hresent]
    subst hcard
    rfl
  · show execAckTimeout s = _
    unfold execAckTimeout
    rw [hflight]
    dsimp only
    rw [if_neg (by rw [hidentify]; decide)]
    subst hcard
    rfl

end

/-- Settles O41. -/
theorem failedCommandTakesCardOffline : Obligations.FailedCommandTakesCardOffline := by
  intro s f i c flagged hflight hcard hi
  have hframe := (s.setCard c flagged).failedCommand_frame c f.requester
  refine ⟨_, exec_failedCommand hflight hcard hi, ?_, ?_, hframe.latch rfl, fun l hrank => ?_,
      fun l hrank hrequest hcanon hmatches => ?_,
    fun x hrank hcensus hidle hlanes => ?_, hframe.settings, hframe.port⟩
  · refine State.cardAt_of_cards hframe.cards ((State.cardAt_setCard_self _ _ _).trans ?_)
    rw [State.cardAt_setCard_self]
  · exact OtherCardsSame.of_cards (t := (s.setCard c flagged).offlined c _) (fun d hd =>
      (State.otherCardsSame_setCard (s.setCard c flagged) c _ d hd).trans
          (State.otherCardsSame_setCard s c flagged d hd)) hframe.cards
  · rw [hrank]
    exact State.phase_failedCommand _ c l
  · rw [hrank, State.failedCommand_lane]
    exact (FailedAt.of_failure (v := s.setCard c flagged) hcanon
      (matched_laneKept.sameTables ((matched_iff s).mpr hmatches)) l c).offlineTaken
      rfl hrequest
  · have hidle' : (s.setCard c flagged).allLanesIdle = true := hidle
    rw [hrank, State.failedCommand_of_idle hidle' hcensus]
    obtain ⟨honly, hmoved⟩ := State.censusNext_arbitrate
      (s := ((s.setCard c flagged).offlined c { (s.setCard c flagged).cardAt c with state := .offline }).freeLink) hcensus rfl hlanes
    obtain ⟨hsame, -, -, hrun, -⟩ := honly.same
    exact ⟨hmoved, honly.sameTables, hsame, hrun⟩

end Sys2Proof.Machine
end

section
/-! CERTIFICATE. The two resets (R185 to R187): what they clear, what they keep, and the census they start. -/

namespace Sys2Proof.Machine

section
variable {s : State} {k j : Slot} {r : StepRecord} {p q : Bool} {d : Option StepEdit}

/-! ## Every HELD record resolved (R28) -/

theorem State.resolve_of_heldAt (h : s.heldAt k = false) : s.resolve k = s := by
  refine State.resolve_of_not_held fun r hr => ?_
  by_contra hheld
  rw [(s.heldAt_iff k).mpr ⟨r, hr, by simpa using hheld⟩] at h
  cases h

theorem State.slotAt_resolve_other (hj : j ≠ k) : (s.resolve k).slotAt j = s.slotAt j := by
  cases h : s.heldAt k with
  | false => rw [State.resolve_of_heldAt h]
  | true =>
    obtain ⟨r, hr, hheld⟩ := (s.heldAt_iff k).mp h
    cases hstatus : r.status with
    | held p d q => exact (State.slotAt_resolve hr hstatus j).trans (if_neg hj)
    | ready | parked _ => rw [hstatus] at hheld; cases hheld

theorem State.slotAt_foldl_resolve_kept (ks : List Slot) (s : State) (h : s.heldAt k = false) :
    (ks.foldl (fun t k => t.resolve k) s).slotAt k = s.slotAt k := by
  induction ks generalizing s with
  | nil => rfl
  | cons x ks ih =>
    rw [List.foldl_cons, ih _ (by rw [State.heldAt_resolve, h]; rfl)]
    by_cases hx : k = x
    · rw [← hx, State.resolve_of_heldAt h]
    · exact State.slotAt_resolve_other hx

theorem State.slotAt_foldl_resolve (ks : List Slot) (s : State) (hmem : k ∈ ks) (hr : s.recordAt k = some r)
    (hstatus : r.status = .held p d q) :
    (ks.foldl (fun t k => t.resolve k) s).slotAt k = resolvedSlot s (s.slotAt k).runMark r p d q := by
  induction ks generalizing s with
  | nil => cases hmem
  | cons x ks ih =>
    rw [List.foldl_cons]
    by_cases hx : k = x
    · subst hx
      rw [State.slotAt_foldl_resolve_kept _ _ (by rw [State.heldAt_resolve]; simp), State.slotAt_resolve hr hstatus, if_pos rfl]
    · have hslot : (s.resolve x).slotAt k = s.slotAt k := State.slotAt_resolve_other hx
      rw [ih _ ((List.mem_cons.mp hmem).resolve_left hx) ((congrArg StepSlot.record hslot).trans hr), hslot]
      refine resolvedSlot_congr (fun n => ?_) _ _ _ _ _
      obtain ⟨count, hnail⟩ := s.nailAt_resolve_rest x n
      rw [hnail]

theorem State.slotAt_resolveAll_kept (h : s.heldAt k = false) : s.resolveAll.slotAt k = s.slotAt k :=
  State.slotAt_foldl_resolve_kept _ _ h

theorem State.slotAt_resolveAll (hr : s.recordAt k = some r) (hstatus : r.status = .held p d q) :
    s.resolveAll.slotAt k = resolvedSlot s (s.slotAt k).runMark r p d q :=
  State.slotAt_foldl_resolve _ _ (State.mem_heldSlots_of_heldAt ((s.heldAt_iff k).mpr ⟨r, hr, by rw [hstatus]; rfl⟩)) hr hstatus

theorem State.nailAt_resolveAll (s : State) (n : NailNo) :
    ∃ count, s.resolveAll.nailAt n = { s.nailAt n with refCount := count } := by
  refine List.foldlRecOn (motive := fun t : State => ∃ count, t.nailAt n = { s.nailAt n with refCount := count }) s.heldSlots _
    ⟨_, rfl⟩ fun t ht k _ => ?_
  obtain ⟨count, ht⟩ := ht
  obtain ⟨count', hresolved⟩ := t.nailAt_resolve_rest k n
  exact ⟨count', by rw [hresolved, ht]⟩

theorem TablesChanged.resolveAll (s : State) : TablesChanged s s.resolveAll :=
  List.foldlRecOn (motive := fun t : State => TablesChanged s t) s.heldSlots _ (.refl s) fun t ht k _ => ht.trans (.resolve t k)

/-! ## The soft reset before its census -/

theorem resolvedSlot_unmarked (s : State) (mark : Bool) (r : StepRecord) (p : Bool) (d : Option StepEdit) (q : Bool) :
    { resolvedSlot s mark r p d q with runMark := false } = resolvedSlot s false r p d q := by
  unfold resolvedSlot
  split <;> rfl

theorem State.slotAt_softCleared (h : s.canonical = true) (k : Slot) :
    s.softCleared.slotAt k = { s.resolveAll.slotAt k with runMark := false } :=
  State.slotAt_clearMarks (State.canonical_resolveAll h) k

theorem State.nailAt_softCleared (h : s.canonical = true) (n : NailNo) :
    s.softCleared.nailAt n = (s.resolveAll.nailAt n).unbound := by
  have hmarks := ((Table.wf_iff _ _).mp
    ((State.canonical_iff _).mp (State.canonical_clearMarks (State.canonical_resolveAll h))).2).1
  unfold State.nailAt State.softCleared
  dsimp only
  rw [Table.get_mapAll _ _ rfl _ hmarks]
  rfl

theorem State.portAt_softCleared (s : State) (l : LaneNo) :
    s.softCleared.portAt l = { s.portAt l with outstanding := none } := Vector.getElem_map _ l.isLt

/-- What a soft reset keeps of the rest, and what it clears. -/
theorem State.softCleared_frame (s : State) :
    ∃ steps nails lanes ports, s.softCleared =
      { s with
        steps := steps, nails := nails, lanes := lanes, ports := ports, exam := .waiting, census := none
        run := { s.run with state := .idle, summary := RunSummary.cleared }
        link := { lastGranted := 4, inFlight := none, sentCommand := s.link.sentCommand }
        latches := Conditions.clear } := by
  obtain ⟨steps, nails, hresolved⟩ := TablesChanged.resolveAll s
  unfold State.softCleared
  rw [hresolved]
  exact ⟨_, _, _, _, rfl⟩

theorem State.noLaneWaits_softCleared (s : State) : s.softCleared.noLaneWaits = true := by
  unfold State.noLaneWaits
  simp only [State.laneAt_softCleared]
  rfl

/-! ## The soft reset whole -/

/-- The cards that a reset identifies after the lowest. -/
def cardsAfterFirst : List CardNo := [1, 2, 3, 4, 5, 6, 7, 8, 9, 10, 11, 12, 13, 14, 15]

theorem State.softReset_eq (s : State) :
    s.softReset =
      { s.softCleared with
        cards := (s.softCleared.censusEntered (0 :: cardsAfterFirst)).cards
        census := some { current := 0, remaining := cardsAfterFirst, stage := .identify, request := .inFlight }
        link :=
          { lastGranted := 4
            inFlight := some { requester := 4, command := .identify 0, resent := false
                               timer := s.softCleared.settings.censusTimeout.toNat }
            sentCommand := some (.identify 0) } } := by
  have hfree : s.softCleared.link.inFlight = none := by
    obtain ⟨_, _, _, _, hframe⟩ := s.softCleared_frame
    rw [hframe]
  exact State.startCensus_sends 0 cardsAfterFirst hfree s.noLaneWaits_softCleared

theorem State.slotAt_softReset (h : s.canonical = true) (k : Slot) :
    s.softReset.slotAt k = { s.resolveAll.slotAt k with runMark := false } :=
  (State.slotAt_congr (by rw [State.softReset_eq]) k).trans (State.slotAt_softCleared h k)

theorem State.nailAt_softReset (h : s.canonical = true) (n : NailNo) :
    s.softReset.nailAt n = (s.resolveAll.nailAt n).unbound :=
  (State.nailAt_congr (by rw [State.softReset_eq]) n).trans (State.nailAt_softCleared h n)

theorem State.laneAt_softReset (s : State) (l : LaneNo) : s.softReset.laneAt l = Lane.blank :=
  (State.laneAt_congr (by rw [State.softReset_eq]) l).trans (s.laneAt_softCleared l)

theorem State.portAt_softReset (s : State) (l : LaneNo) : s.softReset.portAt l = { s.portAt l with outstanding := none } :=
  (State.portAt_congr (by rw [State.softReset_eq]) l).trans (s.portAt_softCleared l)

theorem State.cardAt_softReset (s : State) (c : CardNo) :
    s.softReset.cardAt c = { s.cardAt c with state := .census, descriptor := none } := by
  have hall : ∀ c : CardNo, c ∈ 0 :: cardsAfterFirst := by decide
  have hsame : s.softCleared.cardAt c = s.cardAt c := by
    obtain ⟨_, _, _, _, hframe⟩ := s.softCleared_frame
    rw [hframe]
    rfl
  have hentered := s.softCleared.cardAt_censusEntered (0 :: cardsAfterFirst) c
  rw [if_pos (hall c), hsame] at hentered
  exact (State.cardAt_congr (by rw [State.softReset_eq]) c).trans hentered

theorem State.softReset_frame (s : State) :
    ∃ steps nails lanes ports cards, s.softReset =
      { s with
        steps := steps, nails := nails, lanes := lanes, ports := ports, cards := cards, exam := .waiting
        run := { s.run with state := .idle, summary := RunSummary.cleared }
        census := some { current := 0, remaining := cardsAfterFirst, stage := .identify, request := .inFlight }
        link :=
          { lastGranted := 4
            inFlight := some { requester := 4, command := .identify 0, resent := false, timer := s.settings.censusTimeout.toNat }
            sentCommand := some (.identify 0) }
        latches := Conditions.clear } := by
  obtain ⟨steps, nails, lanes, ports, hframe⟩ := s.softCleared_frame
  rw [State.softReset_eq]
  generalize (s.softCleared.censusEntered (0 :: cardsAfterFirst)).cards = cards
  rw [hframe]
  exact ⟨steps, nails, lanes, ports, cards, rfl⟩

/-! ## The slots after a reset -/

theorem State.slotAt_softReset_kept (h : s.canonical = true) (hk : s.heldAt k = false) :
    s.softReset.slotAt k = { s.slotAt k with runMark := false } := by
  rw [State.slotAt_softReset h, State.slotAt_resolveAll_kept hk]

theorem State.slotAt_softReset_held (h : s.canonical = true) (hr : s.recordAt k = some r) (hstatus : r.status = .held p d q) :
    s.softReset.slotAt k = resolvedSlot s false r p d q := by
  rw [State.slotAt_softReset h, State.slotAt_resolveAll hr hstatus, resolvedSlot_unmarked]

theorem softResetOwner_resets {body : List Byte} (h : body = []) (s : State) :
    softResetOwner body s = (s.softReset, .reply .ok []) := by
  rw [h]
  rfl

end

/-- Settles O4. -/
theorem resetsMakeTheirValues : Obligations.ResetsMakeTheirValues := by
  refine ⟨fun s => rfl, fun s f htakes hcanon hbody => ?_⟩
  have hstep : exec (.softReset f) s = .next _ :=
    exec_of_reply rfl htakes (by rw [hbody]; decide) (softResetOwner_resets hbody (s.taken f))
  have hcanon' : (s.taken f).canonical = true := hcanon
  have hkept (k : Slot) := State.slotAt_softReset_kept (k := k) hcanon'
  have hheld (k : Slot) (r : StepRecord) (p : Bool) (d : Option StepEdit) (q : Bool) :=
    State.slotAt_softReset_held (k := k) (r := r) (p := p) (d := d) (q := q) hcanon'
  have hnails := State.nailAt_softReset hcanon'
  have hlanes := (s.taken f).laneAt_softReset
  have hports := (s.taken f).portAt_softReset
  have hcards := (s.taken f).cardAt_softReset
  obtain ⟨steps, nails, lanes, ports, cards, hframe⟩ := (s.taken f).softReset_frame
  rw [hframe] at hstep hkept hheld hnails hlanes hports hcards
  refine ⟨_, hstep, fun k hfree => ?_, fun k r hr hnot => ?_, fun k r p d q hr hstatus => hheld k r p d q hr hstatus, fun n => ?_,
    hlanes, hports, rfl, rfl, hcards, rfl, rfl, rfl, ⟨rfl, rfl, rfl, rfl, rfl⟩, rfl, rfl⟩
  · refine (hkept k ?_).trans (congrArg (StepSlot.mk false) hfree)
    show ((s.slotAt k).record.map _).getD false = false
    rw [hfree]
    rfl
  · refine (hkept k ?_).trans (congrArg (StepSlot.mk false) hr)
    show ((s.slotAt k).record.map _).getD false = false
    rw [hr]
    exact hnot
  · obtain ⟨count, hnail⟩ := (s.taken f).nailAt_resolveAll n
    have hself := hnails n
    rw [hnail] at hself
    have hbindings := congrArg NailEntry.bindings hself
    have hstate := congrArg NailEntry.state hself
    have hcommon := congrArg NailEntry.common hself
    have hfails := congrArg NailEntry.contactFails hself
    exact ⟨hbindings, hstate, hcommon, hfails⟩

end Sys2Proof.Machine
end
